-- ==== Sys2Proof/Word.lean ====
section
/-! DEFINITION. The word types of the block: a byte is 8 bits, a halfword 16 and a word 32 (R7). -/

namespace Sys2Proof

/-- A byte (R7). -/
abbrev Byte := BitVec 8

/-- A halfword: a code word, a pixel, a picture coordinate (R7, R27, R34). -/
abbrev Half := BitVec 16

/-- A word: a register, or an int32 of the datapath in two's complement (R7, R8). -/
abbrev Word := BitVec 32

end Sys2Proof
end

