-- ==== Sys2Proof/Config.lean ====
section
/-! DEFINITION. What an implementation fixes: the parameters of R6 that the spec decides, the OPEN ones as opaque
constants, and the free values. Nothing in Lean can evaluate an opaque constant here, so a theorem holds whatever it is. -/

namespace Sys2Proof.Config

/-- `HDR_SIZE` (R6). -/
def hdrSize : Nat := 4

/-- `MTU`, the longest datagram (R6, decision D7). -/
def mtu : Nat := 250

/-- `F`, the largest fragment payload, `MTU - HDR_SIZE - 1` (R6). -/
def fragMax : Nat := 245

/-- `INBUF_SIZE`, the longest marker segment body the parser loads (R6, R124). -/
def inbufSize : Nat := 512

/-- `CREDIT_MAX` (R6, R265). -/
def creditMax : Nat := 5

/-- `CRYPT_FLAG`, the encrypted bit the fragmenter writes (R6, R246). -/
def cryptFlag : Bool := false

/-! The OPEN parameters (R6). Each is a raw opaque constant brought into its legal range. -/

opaque rawRxBufSize : Nat
opaque rawPoolSize : BitVec 16
opaque rawCreditInit : Nat
opaque rawTInit : BitVec 32
opaque rawTSteady : BitVec 32
opaque rawRegBase : Nat

/-- `RX_BUF_SIZE`, OPEN, in 1..2^24 (R6, decision D9). -/
def rxBufSize : Nat := 1 + rawRxBufSize % 2 ^ 24

/-- `POOL_SIZE`, OPEN, in 0..65535 (R6, decision D18). -/
def poolSize : BitVec 16 := rawPoolSize

/-- `CREDIT_INIT`, OPEN, in 0..5 (R6, decision D15). -/
def creditInit : BitVec 3 := BitVec.ofNat 3 (rawCreditInit % 6)

/-- `T_STEADY`, OPEN, at least 1 (R6, decision D16). -/
def tSteady : Word := if rawTSteady = 0 then 1 else rawTSteady

/-- `T_INIT`, OPEN, at least `T_STEADY` (R6, R267, decision D16). -/
def tInit : Word := if rawTInit.toNat < tSteady.toNat then tSteady else rawTInit

/-- `REG_BASE`, OPEN, a multiple of 256 (R74). No rule depends on it. -/
def regBase : Nat := 256 * rawRegBase

/-- `BAYER(ix, iy, ch)`, OPEN, any integer function (R6, R207, decision D27). -/
opaque bayer : Nat → Nat → Nat → Int

/-! The free values: what the spec calls "any value" or leaves to a choice. -/

/-- What byte `a` of `RXBUF[b]` reads as before any write since reset number `epoch` (R61, I1): arguments epoch, b, a. -/
opaque rxbufDraw : Nat → Nat → Nat → Byte

/-- What byte `a` of TXSRC reads as before the camera writes it (R73, R330). -/
opaque txsrcDraw : Nat → Byte

/-- The choice a JD read makes between the old values and the new value of a rewritten byte (R69, I2). -/
opaque raceDraw : Nat → Nat

/-- The choice TXP makes when an ACK and a fragment both wait: true sends the ACK (R260, I21). -/
opaque txpAckFirst : Nat → Bool

/-- `tmp` at reset (R32, R330, I4): arguments epoch, index. -/
opaque tmpDraw : Nat → Nat → Word

/-- `mcubuf` at reset (R33, R330, I4): arguments epoch, block, index. -/
opaque mcubufDraw : Nat → Nat → Nat → Byte

/-- `tile` at reset (R34, R330, I4): arguments epoch, index. -/
opaque tileDraw : Nat → Nat → Half

/-- `rect` at reset (R34, R330, I4): arguments epoch, which bound. -/
opaque rectDraw : Nat → Nat → Half

/-- `inflight` at reset (R39, R330, I4). -/
opaque inflightDraw : Nat → List Byte

end Sys2Proof.Config
end

