-- ==== Sys2Proof/Syntax.lean ====
section
/-! DEFINITION. The syntax of what the block decodes: one constructor per mnemonic of spec/opcode_table.json
(packets R80 to R84, command words R99 and R100, markers R87, entropy byte pairs R94, Huffman symbols R95 and R96). -/

namespace Sys2Proof

/-- A received datagram after its TYPE byte (R80, R83, R84): FLAGS, SIZE, RSV and every byte after the 4-byte header. -/
structure Packet where
  flags : Byte
  size : Byte
  rsv : Byte
  body : List Byte
  deriving DecidableEq, Repr

/-- What the block decodes (spec/opcode_table.json). -/
inductive Instr where
  /-- TYPE 0x00, received (R238). -/
  | pktAck (p : Packet)
  /-- TYPE 0x01 (R237). -/
  | pktNak (p : Packet)
  /-- TYPE 0x02 (R233). -/
  | pktInitialHeaderData (p : Packet)
  /-- TYPE 0x03 (R233). -/
  | pktFrameData (p : Packet)
  /-- TYPE 0x04 (R237). -/
  | pktTelemetry (p : Packet)
  /-- TYPE 0x05 (R237). -/
  | pktPing (p : Packet)
  /-- TYPE 0x06 (R237). -/
  | pktSwitchChannel (p : Packet)
  /-- TYPE 0x07 (R237). -/
  | pktTxPowerUpdate (p : Packet)
  /-- TYPE 0x08 (R237). -/
  | pktEnableLed (p : Packet)
  /-- TYPE 0x09 to 0xFF (R239). -/
  | pktUnknown (type : Byte) (p : Packet)
  /-- JD_CTRL with CMD 0 (R21). -/
  | jdNop (buf : Bool)
  /-- JD_CTRL with CMD 1: PREPARE buffer BUF (R120). -/
  | jdPrepare (buf : Bool)
  /-- JD_CTRL with CMD 2: DECOMP, BUF ignored (R200). -/
  | jdDecomp (buf : Bool)
  /-- JD_CTRL with CMD 3 (R21). -/
  | jdReserved (buf : Bool)
  /-- RX_CTRL with TAKE 1; `clr` is CLR_STICKY, which acts after TAKE (R35, R243). -/
  | rxTake (clr : Bool)
  /-- RX_CTRL with TAKE 0 and CLR_STICKY 1 (R35). -/
  | rxClrSticky
  /-- TXC_CTRL with CAPTURE_REQ 1 (R264). -/
  | txcCaptureReq
  /-- TXC_FRAG_CTRL with START 1; `frame` is TYPE (R244). -/
  | txcFragStart (frame : Bool)
  /-- A write of INT_STATUS (R42). -/
  | intW1c (clear : Byte)
  /-- FF D8, the first two bytes (R122). -/
  | mkSoi
  /-- FF C0 Lseg (R125). -/
  | mkSof0 (lseg : Half)
  /-- FF C4 Lseg (R127). -/
  | mkDht (lseg : Half)
  /-- FF DB Lseg (R129). -/
  | mkDqt (lseg : Half)
  /-- FF DD Lseg (R126). -/
  | mkDri (lseg : Half)
  /-- FF DA Lseg (R130, R131). -/
  | mkSos (lseg : Half)
  /-- FF C1 Lseg (R132). -/
  | mkSof1Reject (lseg : Half)
  /-- FF C2 Lseg (R132). -/
  | mkSof2Reject (lseg : Half)
  /-- FF C3 Lseg (R132). -/
  | mkSof3Reject (lseg : Half)
  /-- FF C5 Lseg (R132). -/
  | mkSof5Reject (lseg : Half)
  /-- FF C6 Lseg (R132). -/
  | mkSof6Reject (lseg : Half)
  /-- FF C7 Lseg (R132). -/
  | mkSof7Reject (lseg : Half)
  /-- FF C9 Lseg (R132). -/
  | mkSof9Reject (lseg : Half)
  /-- FF CA Lseg (R132). -/
  | mkSof10Reject (lseg : Half)
  /-- FF CB Lseg (R132). -/
  | mkSof11Reject (lseg : Half)
  /-- FF CD Lseg (R132). -/
  | mkSof13Reject (lseg : Half)
  /-- FF CE Lseg (R132). -/
  | mkSof14Reject (lseg : Half)
  /-- FF CF Lseg (R132). -/
  | mkSof15Reject (lseg : Half)
  /-- FF D9 Lseg in the header (R132). -/
  | mkEoiReject (lseg : Half)
  /-- FF D0+n, read by RESTART (R154). -/
  | mkRstn (n : BitVec 3)
  /-- FF c Lseg for every other c (R133). -/
  | mkOther (c : Byte) (lseg : Half)
  /-- FF 00 in entropy data (R151). -/
  | edStuffedFF
  /-- FF xx with xx not 0 in entropy data (R151, R156). -/
  | edMarkerInData (xx : Byte)
  /-- The DC symbol 0 (R171). -/
  | dcClass0
  /-- A DC symbol SSSS in 1..11 (R171). -/
  | dcClass (ssss : BitVec 4)
  /-- The AC symbol 0x00 (R175). -/
  | acEob
  /-- The AC symbol 0xF0 (R175). -/
  | acZrl
  /-- An AC symbol with SSSS 0 and RRRR in 1..14 (R175). -/
  | acRunSkip (rrrr : BitVec 4)
  /-- An AC symbol with SSSS in 1..11 (R175). -/
  | acRunSize (rrrr ssss : BitVec 4)
  /-- An AC symbol with SSSS in 12..15 (R175). -/
  | acBadClass (rrrr ssss : BitVec 4)
  deriving DecidableEq, Repr

end Sys2Proof
end

