-- ==== Sys2Proof/WellFormed.lean ====
section
/-! DEFINITION. Well-formed instructions: those with an encoding of their own. -/

namespace Sys2Proof

/-- The marker codes the header parser treats by name (R87, R123); every other code is "other" (R133). -/
def namedMarkers : List Byte :=
  [0xC0, 0xC4, 0xDB, 0xDD, 0xDA, 0xC1, 0xC2, 0xC3, 0xC5, 0xC6, 0xC7, 0xC9, 0xCA, 0xCB, 0xCD, 0xCE, 0xCF, 0xD9]

/-- A datagram of at most MTU bytes (R231). -/
def Packet.wf (p : Packet) : Bool := decide (Config.hdrSize + p.body.length ≤ Config.mtu)

/-- The operands stand in the ranges spec/opcode_table.json and R81, R87, R95 and R96 give the row. -/
def Instr.wf : Instr → Bool
  | .pktAck p => p.wf
  | .pktNak p => p.wf
  | .pktInitialHeaderData p => p.wf
  | .pktFrameData p => p.wf
  | .pktTelemetry p => p.wf
  | .pktPing p => p.wf
  | .pktSwitchChannel p => p.wf
  | .pktTxPowerUpdate p => p.wf
  | .pktEnableLed p => p.wf
  | .pktUnknown t p => decide (9 ≤ t.toNat) && p.wf
  | .jdNop _ => true
  | .jdPrepare _ => true
  | .jdDecomp _ => true
  | .jdReserved _ => true
  | .rxTake _ => true
  | .rxClrSticky => true
  | .txcCaptureReq => true
  | .txcFragStart _ => true
  | .intW1c _ => true
  | .mkSoi => true
  | .mkSof0 _ => true
  | .mkDht _ => true
  | .mkDqt _ => true
  | .mkDri _ => true
  | .mkSos _ => true
  | .mkSof1Reject _ => true
  | .mkSof2Reject _ => true
  | .mkSof3Reject _ => true
  | .mkSof5Reject _ => true
  | .mkSof6Reject _ => true
  | .mkSof7Reject _ => true
  | .mkSof9Reject _ => true
  | .mkSof10Reject _ => true
  | .mkSof11Reject _ => true
  | .mkSof13Reject _ => true
  | .mkSof14Reject _ => true
  | .mkSof15Reject _ => true
  | .mkEoiReject _ => true
  | .mkRstn _ => true
  | .mkOther c _ => !(namedMarkers.contains c)
  | .edStuffedFF => true
  | .edMarkerInData xx => decide (xx ≠ 0)
  | .dcClass0 => true
  | .dcClass s => decide (1 ≤ s.toNat) && decide (s.toNat ≤ 11)
  | .acEob => true
  | .acZrl => true
  | .acRunSkip r => decide (1 ≤ r.toNat) && decide (r.toNat ≤ 14)
  | .acRunSize _ s => decide (1 ≤ s.toNat) && decide (s.toNat ≤ 11)
  | .acBadClass _ s => decide (12 ≤ s.toNat)

/-- An instruction is well formed. -/
abbrev WellFormed (i : Instr) : Prop := i.wf = true

end Sys2Proof
end

