-- ==== Sys2Proof/Decode.lean ====
section
/-! DEFINITION. The decoder, total on any bytes, and after it the encoder. The same bits mean different things at
different ports of the block (a packet type, a command word, a marker, a Huffman symbol), so the decoder takes the port. -/

namespace Sys2Proof

/-- Where bytes are decoded. -/
inductive Port where
  /-- RADIO_RX: a datagram (R80 to R84). -/
  | radio
  /-- The register at this offset: a word in its little-endian serialization (R64, R99, R100). -/
  | reg (off : Nat)
  /-- The first two bytes of a source (R122). -/
  | soi
  /-- The marker loop: marker and Lseg, four bytes (R88, R123). -/
  | header
  /-- FetchData, after a byte FF: two bytes (R151). -/
  | entropy
  /-- RESTART: two bytes, exactly FF D0 to FF D7 (R154's words, against the wider mask of its pseudocode: DEDUCED, unsafe,
  assumption log 16). -/
  | restart
  /-- A symbol of a DC table (R95). -/
  | dcSymbol
  /-- A symbol of an AC table (R96). -/
  | acSymbol
  deriving DecidableEq, Repr

/-- Why the decoder rejects some bytes. -/
inductive Reject where
  /-- A datagram longer than MTU (R231). -/
  | long
  /-- A datagram shorter than its header (R231). -/
  | short
  /-- A register write that is no command word (R43, R99, R100). -/
  | noCommand
  /-- The first two bytes are not FF D8 (R122). -/
  | notSoi
  /-- The first of the four bytes is not FF (R123). -/
  | notMarker
  /-- The first of the two bytes is not FF. -/
  | notPair
  /-- The two bytes are no restart marker (R154). -/
  | notRestart
  /-- A DC symbol above 11 (R95, R127). -/
  | dcRange
  /-- Not the number of bytes the port takes. -/
  | badLength
  deriving DecidableEq, Repr

/-- The instruction of a packet type (R81). -/
def packetInstr (t : Byte) (p : Packet) : Instr :=
  if t = 0x00 then .pktAck p
  else if t = 0x01 then .pktNak p
  else if t = 0x02 then .pktInitialHeaderData p
  else if t = 0x03 then .pktFrameData p
  else if t = 0x04 then .pktTelemetry p
  else if t = 0x05 then .pktPing p
  else if t = 0x06 then .pktSwitchChannel p
  else if t = 0x07 then .pktTxPowerUpdate p
  else if t = 0x08 then .pktEnableLed p
  else .pktUnknown t p

/-- A datagram `D[0..L-1]`: the length checks of R231, then TYPE (R80, R81). -/
def decodePacket (d : List Byte) : Except Reject Instr :=
  if Config.mtu < d.length then .error .long
  else match d with
    | t :: flags :: size :: rsv :: body => .ok (packetInstr t ⟨flags, size, rsv, body⟩)
    | _ => .error .short

/-- A register word from its bytes, little-endian (R64). -/
def wordOfLe (b0 b1 b2 b3 : Byte) : Word := b3 ++ b2 ++ b1 ++ b0

/-- The command word of the register at an offset (R35, R40, R42, R99, R100); `none` where the write is no command. -/
def decodeRegister (off : Nat) (w : Word) : Option Instr :=
  if off = 0x00 then
    let buf := w.getLsbD 8
    if w.extractLsb' 0 2 = 0 then some (.jdNop buf)
    else if w.extractLsb' 0 2 = 1 then some (.jdPrepare buf)
    else if w.extractLsb' 0 2 = 2 then some (.jdDecomp buf)
    else some (.jdReserved buf)
  else if off = 0x40 then
    if w.getLsbD 0 then some (.rxTake (w.getLsbD 1))
    else if w.getLsbD 1 then some .rxClrSticky
    else none
  else if off = 0x80 then (if w.getLsbD 0 then some .txcCaptureReq else none)
  else if off = 0x94 then (if w.getLsbD 0 then some (.txcFragStart (w.getLsbD 1)) else none)
  else if off = 0xC0 then some (.intW1c (w.extractLsb' 0 8))
  else none

/-- The marker dispatch of R123 on the code byte (R87). -/
def markerInstr (c : Byte) (lseg : Half) : Instr :=
  if c = 0xC0 then .mkSof0 lseg
  else if c = 0xC4 then .mkDht lseg
  else if c = 0xDB then .mkDqt lseg
  else if c = 0xDD then .mkDri lseg
  else if c = 0xDA then .mkSos lseg
  else if c = 0xC1 then .mkSof1Reject lseg
  else if c = 0xC2 then .mkSof2Reject lseg
  else if c = 0xC3 then .mkSof3Reject lseg
  else if c = 0xC5 then .mkSof5Reject lseg
  else if c = 0xC6 then .mkSof6Reject lseg
  else if c = 0xC7 then .mkSof7Reject lseg
  else if c = 0xC9 then .mkSof9Reject lseg
  else if c = 0xCA then .mkSof10Reject lseg
  else if c = 0xCB then .mkSof11Reject lseg
  else if c = 0xCD then .mkSof13Reject lseg
  else if c = 0xCE then .mkSof14Reject lseg
  else if c = 0xCF then .mkSof15Reject lseg
  else if c = 0xD9 then .mkEoiReject lseg
  else .mkOther c lseg

/-- A symbol of a DC table (R95). -/
def dcInstr (b : Byte) : Except Reject Instr :=
  if b = 0 then .ok .dcClass0
  else if b.toNat ≤ 11 then .ok (.dcClass (b.extractLsb' 0 4))
  else .error .dcRange

/-- A symbol of an AC table: RRRR in the high four bits, SSSS in the low four (R96). -/
def acInstr (b : Byte) : Instr :=
  let rrrr := b.extractLsb' 4 4
  let ssss := b.extractLsb' 0 4
  if ssss = 0 then
    if rrrr = 0 then .acEob else if rrrr = 15 then .acZrl else .acRunSkip rrrr
  else if ssss.toNat ≤ 11 then .acRunSize rrrr ssss
  else .acBadClass rrrr ssss

/-- The decoder: the instruction some bytes stand for at a port, or the reason they stand for none. -/
def decode (port : Port) (bs : List Byte) : Except Reject Instr :=
  match port with
  | .radio => decodePacket bs
  | .reg off =>
    match bs with
    | [b0, b1, b2, b3] =>
      match decodeRegister off (wordOfLe b0 b1 b2 b3) with
      | some i => .ok i
      | none => .error .noCommand
    | _ => .error .badLength
  | .soi =>
    match bs with
    | [b0, b1] => if b0 = 0xFF ∧ b1 = 0xD8 then .ok .mkSoi else .error .notSoi
    | _ => .error .badLength
  | .header =>
    match bs with
    | [m0, m1, l0, l1] => if m0 = 0xFF then .ok (markerInstr m1 (l0 ++ l1)) else .error .notMarker
    | _ => .error .badLength
  | .entropy =>
    match bs with
    | [b, c] =>
      if b = 0xFF then (if c = 0 then .ok .edStuffedFF else .ok (.edMarkerInData c)) else .error .notPair
    | _ => .error .badLength
  | .restart =>
    match bs with
    | [b0, b1] =>
      if b0 = 0xFF ∧ b1 &&& 0xF8 = 0xD0 then .ok (.mkRstn (b1.extractLsb' 0 3)) else .error .notRestart
    | _ => .error .badLength
  | .dcSymbol =>
    match bs with
    | [b] => dcInstr b
    | _ => .error .badLength
  | .acSymbol =>
    match bs with
    | [b] => .ok (acInstr b)
    | _ => .error .badLength

/-! The encoder. -/

/-- The port at which an instruction is encoded. -/
def portOf : Instr → Port
  | .pktAck _ => .radio
  | .pktNak _ => .radio
  | .pktInitialHeaderData _ => .radio
  | .pktFrameData _ => .radio
  | .pktTelemetry _ => .radio
  | .pktPing _ => .radio
  | .pktSwitchChannel _ => .radio
  | .pktTxPowerUpdate _ => .radio
  | .pktEnableLed _ => .radio
  | .pktUnknown _ _ => .radio
  | .jdNop _ => .reg 0x00
  | .jdPrepare _ => .reg 0x00
  | .jdDecomp _ => .reg 0x00
  | .jdReserved _ => .reg 0x00
  | .rxTake _ => .reg 0x40
  | .rxClrSticky => .reg 0x40
  | .txcCaptureReq => .reg 0x80
  | .txcFragStart _ => .reg 0x94
  | .intW1c _ => .reg 0xC0
  | .mkSoi => .soi
  | .mkSof0 _ => .header
  | .mkDht _ => .header
  | .mkDqt _ => .header
  | .mkDri _ => .header
  | .mkSos _ => .header
  | .mkSof1Reject _ => .header
  | .mkSof2Reject _ => .header
  | .mkSof3Reject _ => .header
  | .mkSof5Reject _ => .header
  | .mkSof6Reject _ => .header
  | .mkSof7Reject _ => .header
  | .mkSof9Reject _ => .header
  | .mkSof10Reject _ => .header
  | .mkSof11Reject _ => .header
  | .mkSof13Reject _ => .header
  | .mkSof14Reject _ => .header
  | .mkSof15Reject _ => .header
  | .mkEoiReject _ => .header
  | .mkRstn _ => .restart
  | .mkOther _ _ => .header
  | .edStuffedFF => .entropy
  | .edMarkerInData _ => .entropy
  | .dcClass0 => .dcSymbol
  | .dcClass _ => .dcSymbol
  | .acEob => .acSymbol
  | .acZrl => .acSymbol
  | .acRunSkip _ => .acSymbol
  | .acRunSize _ _ => .acSymbol
  | .acBadClass _ _ => .acSymbol

/-- The bytes of a datagram (R80). -/
def encodePacket (t : Byte) (p : Packet) : List Byte := t :: p.flags :: p.size :: p.rsv :: p.body

/-- The bytes of a register word, little-endian (R64). -/
def leBytes (w : Word) : List Byte :=
  [w.extractLsb' 0 8, w.extractLsb' 8 8, w.extractLsb' 16 8, w.extractLsb' 24 8]

/-- A JD_CTRL word (R99). -/
def jdWord (cmd : BitVec 2) (buf : Bool) : Word := BitVec.setWidth 32 (BitVec.ofBool buf ++ (0 : BitVec 6) ++ cmd)

/-- The two low bits of a command word (R100). -/
def lowBits (b1 b0 : Bool) : Word := BitVec.setWidth 32 (BitVec.ofBool b1 ++ BitVec.ofBool b0)

/-- A marker with its segment length (R88). -/
def encodeMarker (c : Byte) (lseg : Half) : List Byte := [0xFF, c, lseg.extractLsb' 8 8, lseg.extractLsb' 0 8]

/-- The bytes of an instruction at its port. -/
def encode : Instr → List Byte
  | .pktAck p => encodePacket 0x00 p
  | .pktNak p => encodePacket 0x01 p
  | .pktInitialHeaderData p => encodePacket 0x02 p
  | .pktFrameData p => encodePacket 0x03 p
  | .pktTelemetry p => encodePacket 0x04 p
  | .pktPing p => encodePacket 0x05 p
  | .pktSwitchChannel p => encodePacket 0x06 p
  | .pktTxPowerUpdate p => encodePacket 0x07 p
  | .pktEnableLed p => encodePacket 0x08 p
  | .pktUnknown t p => encodePacket t p
  | .jdNop buf => leBytes (jdWord 0 buf)
  | .jdPrepare buf => leBytes (jdWord 1 buf)
  | .jdDecomp buf => leBytes (jdWord 2 buf)
  | .jdReserved buf => leBytes (jdWord 3 buf)
  | .rxTake clr => leBytes (lowBits clr true)
  | .rxClrSticky => leBytes (lowBits true false)
  | .txcCaptureReq => leBytes (lowBits false true)
  | .txcFragStart frame => leBytes (lowBits frame true)
  | .intW1c clear => leBytes (clear.setWidth 32)
  | .mkSoi => [0xFF, 0xD8]
  | .mkSof0 lseg => encodeMarker 0xC0 lseg
  | .mkDht lseg => encodeMarker 0xC4 lseg
  | .mkDqt lseg => encodeMarker 0xDB lseg
  | .mkDri lseg => encodeMarker 0xDD lseg
  | .mkSos lseg => encodeMarker 0xDA lseg
  | .mkSof1Reject lseg => encodeMarker 0xC1 lseg
  | .mkSof2Reject lseg => encodeMarker 0xC2 lseg
  | .mkSof3Reject lseg => encodeMarker 0xC3 lseg
  | .mkSof5Reject lseg => encodeMarker 0xC5 lseg
  | .mkSof6Reject lseg => encodeMarker 0xC6 lseg
  | .mkSof7Reject lseg => encodeMarker 0xC7 lseg
  | .mkSof9Reject lseg => encodeMarker 0xC9 lseg
  | .mkSof10Reject lseg => encodeMarker 0xCA lseg
  | .mkSof11Reject lseg => encodeMarker 0xCB lseg
  | .mkSof13Reject lseg => encodeMarker 0xCD lseg
  | .mkSof14Reject lseg => encodeMarker 0xCE lseg
  | .mkSof15Reject lseg => encodeMarker 0xCF lseg
  | .mkEoiReject lseg => encodeMarker 0xD9 lseg
  | .mkRstn n => [0xFF, (0b11010 : BitVec 5) ++ n]
  | .mkOther c lseg => encodeMarker c lseg
  | .edStuffedFF => [0xFF, 0x00]
  | .edMarkerInData xx => [0xFF, xx]
  | .dcClass0 => [0x00]
  | .dcClass ssss => [(0 : BitVec 4) ++ ssss]
  | .acEob => [0x00]
  | .acZrl => [0xF0]
  | .acRunSkip rrrr => [rrrr ++ (0 : BitVec 4)]
  | .acRunSize rrrr ssss => [rrrr ++ ssss]
  | .acBadClass rrrr ssss => [rrrr ++ ssss]

/-! The opcode table's numbering gives no port: a packet type and a Huffman symbol both have 8 bits, and every command
word has 32. The port taken for a word of the table is the model's choice (assumption log 12). -/

/-- The port and the bytes taken for a word of the opcode table: one byte is a packet type with a datagram of zeros after
it, two bytes are a marker or entropy byte pair (stored high byte first, R64), and a longer word is written to JD_CTRL. -/
def tableBytes (nbits w : Nat) : Port × List Byte :=
  if nbits ≤ 8 then (.radio, [BitVec.ofNat 8 w, 0, 0, 0, 0])
  else if nbits ≤ 16 then
    let hi : Byte := BitVec.ofNat 8 (w / 256)
    let lo : Byte := BitVec.ofNat 8 w
    if lo = 0x00 then (.entropy, [hi, lo])
    else if lo = 0xD8 then (.soi, [hi, lo])
    else if lo &&& 0xF8 = 0xD0 then (.restart, [hi, lo])
    else (.header, [hi, lo, 0, 0])
  else (.reg 0x00, leBytes (BitVec.ofNat 32 w))

/-- The instruction the decoder reads from a word of the opcode table. -/
def decodeTableWord (nbits w : Nat) : Option Instr :=
  match decode (tableBytes nbits w).1 (tableBytes nbits w).2 with
  | .ok i => some i
  | .error _ => none

end Sys2Proof
end

