-- ==== Sys2Proof/Machine/State.lean ====
section
/-! DEFINITION. The state of the block (R20), unit by unit, with its reset values (R330), and the reasons a step can stop. -/

namespace Sys2Proof.Machine

/-- Why the machine stops with a fault. -/
inductive Fault where
  /-- JD reads an address of RXBUF at or above RX_BUF_SIZE, which does not exist (R60). Raised by `nextByte`. Safe: the
  machine stops; no state that a run reaches raises it (R150). -/
  | rxbufAddress
  /-- JD reads a Huffman or quantization table that is not present (R27). Raised by the block decoder. Safe: the machine
  stops; no state that a run reaches raises it (R130). -/
  | tableAbsent
  deriving DecidableEq, Repr

/-- Why the machine gives an instruction or an access no meaning. -/
inductive Refusal where
  /-- An instruction that has no meaning yet. Raised by `exec`. Safe. -/
  | notModelled (mnemonic : String)
  /-- A register access that is not an aligned 32-bit access in the 256-byte register space (R43, I5). Raised by the host
  port. Safe. -/
  | registerAccess
  /-- A DC symbol above 11, which has no encoding (R95, R127). Raised when JD decodes a symbol. Safe: no state that a run
  reaches raises it. -/
  | dcSymbol
  deriving DecidableEq, Repr

/-- The result codes of JD_STATUS.RESULT (R301). -/
inductive ResultCode where
  | ok | intr | inp | mem1 | mem2 | par | fmt1 | fmt2 | fmt3
  deriving DecidableEq, Repr

/-- Why RX drops a datagram (R310). -/
inductive DropReason where
  | long | short | size | type | bounds
  deriving DecidableEq, Repr

/-- The interrupt events, in the order of their bits in INT_STATUS (R42). -/
inductive Event where
  | jdDone | frameReady | frameOverrun | rxDrop | wdtFire | txDone | captureGo | fragDone
  deriving DecidableEq, Repr

/-- Bytes by address, rising; an address that is not listed holds no stored byte. -/
abbrev Memory := List Host.Cell

/-- The OPEN parameters of R6 that the machine is built with; no step writes them. -/
structure Params where
  rxBufSize : Nat
  poolSize : BitVec 16
  creditInit : BitVec 3
  tInit : Word
  tSteady : Word
  deriving DecidableEq, Repr

/-- The parameters stand in the ranges of R6. -/
abbrev Params.Legal (p : Params) : Prop :=
  1 ≤ p.rxBufSize ∧ p.rxBufSize ≤ 2 ^ 24 ∧ p.creditInit.toNat ≤ Config.creditMax ∧
    1 ≤ p.tSteady.toNat ∧ p.tSteady.toNat ≤ p.tInit.toNat

/-- A Huffman table that is present (R27): the counts, the code words and the values; `np` is the number of values. -/
structure HuffTable where
  bits : List Byte
  code : List Half
  val : List Byte
  deriving DecidableEq, Repr

/-- The four Huffman tables by id and class; `none` is `present = 0` (R27). -/
structure HuffTables where
  dc0 : Option HuffTable
  ac0 : Option HuffTable
  dc1 : Option HuffTable
  ac1 : Option HuffTable
  deriving DecidableEq, Repr

/-- The 64 entries of a quantization table, raster order (R28). -/
abbrev QuantTable := Vector Word 64

/-- The four quantization tables; `none` is `present = 0` (R28). -/
structure QuantTables where
  q0 : Option QuantTable
  q1 : Option QuantTable
  q2 : Option QuantTable
  q3 : Option QuantTable
  deriving DecidableEq, Repr

/-- The 64 samples of a block, raster order (R33). -/
abbrev Block := Vector Byte 64

/-- A tile rectangle, inclusive bounds (R34). -/
structure Rect where
  left : Half
  top : Half
  right : Half
  bottom : Half
  deriving DecidableEq, Repr

/-- A HUFFEXT in progress: the local `v`, `m`, `c`, the number `l` of bits read and the table index `j` (R153). -/
structure HuffReader where
  v : Half
  m : Byte
  c : Byte
  l : Nat
  j : Nat
  deriving DecidableEq, Repr

/-- Where the running JD command stands between two steps of the unit (R120, R200). -/
inductive JdMode where
  /-- No command runs. -/
  | idle
  /-- PREPARE, before the SOI check (R122). -/
  | soi
  /-- PREPARE, at the marker loop head (R123). -/
  | marker
  /-- DECOMP, at the MCU loop head (R202). -/
  | mcu
  /-- DECOMP, before the restart marker is read (R154). -/
  | restart
  /-- DECOMP, inside the HUFFEXT of a DC symbol (R171). -/
  | huffDc
  /-- DECOMP, inside the HUFFEXT of an AC symbol (R175). -/
  | huffAc
  /-- DECOMP, a DC symbol extracted (R171). -/
  | symbolDc (b : Byte)
  /-- DECOMP, an AC symbol extracted (R175). -/
  | symbolAc (b : Byte)
  /-- DECOMP, before TRANSFORM (R180). -/
  | transform
  /-- DECOMP, before MCU_OUTPUT (R204). -/
  | output
  /-- DECOMP holds on the tile port (R210). -/
  | tile
  deriving DecidableEq, Repr

/-- The JD unit (R21 to R34). -/
structure Jd where
  /-- JD_STATUS (R22). -/
  busy : Bool
  prepared : Bool
  done : Bool
  cmdIgnored : Bool
  result : ResultCode
  phase : BitVec 2
  /-- The frame configuration (R23). -/
  width : Half
  height : Half
  msx : BitVec 2
  msy : BitVec 2
  nrst : Half
  qtid0 : BitVec 2
  qtid1 : BitVec 2
  qtid2 : BitVec 2
  /-- JD_ARENA.USED (R26). -/
  used : BitVec 16
  /-- JD_POS (R24). -/
  posX : Half
  posY : Half
  /-- The source registers (R25). -/
  srcIdx : Bool
  srcLen : BitVec 24
  srcPos : BitVec 24
  /-- The tables (R27, R28). -/
  huff : HuffTables
  quant : QuantTables
  /-- The DC predictors (R29). -/
  dcv0 : Half
  dcv1 : Half
  dcv2 : Half
  /-- The bit reader (R30). -/
  cur : Byte
  msk : Byte
  /-- The restart counters (R31). -/
  rst : Half
  rsc : Half
  /-- The scratch buffers (R32 to R34). -/
  tmp : Vector Word 64
  mcubuf : Vector Block 6
  tile : Vector Half 256
  rect : Rect
  /-- The command in progress: the loop variables of R202 (17 bits), R170 and R175, and the HUFFEXT of R153. -/
  mode : JdMode
  loopX : BitVec 17
  loopY : BitVec 17
  blk : Nat
  coefIdx : Nat
  acAny : Bool
  hx : HuffReader
  deriving DecidableEq, Repr

/-- The RX unit (R36 to R38). A buffer index is `false` for 0 and `true` for 1. -/
structure Rx where
  hdrValid : Bool
  frameReady : Bool
  fillIdx : Bool
  readyIdx : Bool
  overrun : Bool
  bounds : Bool
  hdrLen : BitVec 24
  frameLen0 : BitVec 24
  frameLen1 : BitVec 24
  takeIdx : Bool
  takeValid : Bool
  takeLen : BitVec 24
  dropCnt : Word
  ackPend : Byte
  deriving DecidableEq, Repr

/-- The TXP unit (R39). -/
structure Txp where
  busy : Bool
  inflight : List Byte
  deriving DecidableEq, Repr

/-- The TXC unit (R40, R41). -/
structure Txc where
  firstAck : Bool
  captureWait : Bool
  credit : BitVec 3
  wdtCnt : Word
  fragLen : BitVec 24
  fragBusy : Bool
  fragK : BitVec 24
  fragS : BitVec 24
  fragType : Bool
  deriving DecidableEq, Repr

/-- INT_STATUS and INT_ENABLE (R42). -/
structure Intr where
  status : Byte
  enable : Byte
  deriving DecidableEq, Repr

/-- What the environment does at a port (R345). -/
inductive Input where
  /-- RADIO_RX delivers a datagram (R343). -/
  | radio (d : List Byte)
  /-- The host writes `n` bytes at offset `off` of the register space (R43). -/
  | regWrite (off n : Nat) (w : Word)
  /-- The host reads `n` bytes at offset `off` of the register space (R43). -/
  | regRead (off n : Nat)
  /-- The answer to the pending tile (R210). -/
  | tileAnswer (accept : Bool)
  /-- The transport's completion (R261). -/
  | txdone
  /-- The time base (R344). -/
  | tick
  /-- The camera writes bytes of TXSRC from an address on (R73). -/
  | camera (a : Nat) (bytes : List Byte)
  /-- Reset (R331). -/
  | reset
  deriving DecidableEq, Repr

/-- What the block puts out (R345), and the values the host's register reads return. -/
inductive Output where
  | radioTx (d : List Byte)
  | ctrlOut (d : List Byte)
  | tile (r : Rect) (pixels : List Half)
  | regValue (off : Nat) (w : Word)
  deriving DecidableEq, Repr

/-- Who moves next (R67). -/
inductive Turn where
  | env | jd | txp
  deriving DecidableEq, Repr

/-- The state of the block (R20). -/
structure State where
  /-- The parameters (R6); no step writes them. -/
  params : Params
  jd : Jd
  rx : Rx
  txp : Txp
  txc : Txc
  intr : Intr
  /-- RXBUF[0] and RXBUF[1] (R61). -/
  rxbuf0 : Memory
  rxbuf1 : Memory
  /-- The camera's frame memory (R73). -/
  txsrc : Memory
  /-- The model's own: values RX has overwritten in the buffer of the running JD command (R69). -/
  raced : List Host.Cell
  /-- The model's own: numbers the free choices. -/
  draws : Nat
  /-- The model's own: numbers the resets. -/
  epoch : Nat
  /-- The model's own: the environment's inputs still to come. -/
  inputs : List Input
  /-- The model's own: whose turn it is; empty means the fixed order JD, TXP, environment. -/
  schedule : List Turn
  /-- The model's own: what the block has put out, newest first. -/
  out : List Output
  deriving DecidableEq, Repr

/-- The JD unit after reset number `epoch` (R330). -/
def Jd.reset (epoch : Nat) : Jd where
  busy := false
  prepared := false
  done := false
  cmdIgnored := false
  result := .ok
  phase := 0
  width := 0
  height := 0
  msx := 0
  msy := 0
  nrst := 0
  qtid0 := 0
  qtid1 := 0
  qtid2 := 0
  used := 0
  posX := 0
  posY := 0
  srcIdx := false
  srcLen := 0
  srcPos := 0
  huff := ⟨none, none, none, none⟩
  quant := ⟨none, none, none, none⟩
  dcv0 := 0
  dcv1 := 0
  dcv2 := 0
  cur := 0
  msk := 0
  rst := 0
  rsc := 0
  tmp := Vector.ofFn fun i => Config.tmpDraw epoch i.val
  mcubuf := Vector.ofFn fun b => Vector.ofFn fun i => Config.mcubufDraw epoch b.val i.val
  tile := Vector.ofFn fun i => Config.tileDraw epoch i.val
  rect := ⟨Config.rectDraw epoch 0, Config.rectDraw epoch 1, Config.rectDraw epoch 2, Config.rectDraw epoch 3⟩
  mode := .idle
  loopX := 0
  loopY := 0
  blk := 0
  coefIdx := 0
  acAny := false
  hx := ⟨0, 0, 0, 0, 0⟩

/-- The RX unit after reset (R330). -/
def Rx.reset : Rx where
  hdrValid := false
  frameReady := false
  fillIdx := false
  readyIdx := false
  overrun := false
  bounds := false
  hdrLen := 0
  frameLen0 := 0
  frameLen1 := 0
  takeIdx := false
  takeValid := false
  takeLen := 0
  dropCnt := 0
  ackPend := 0

/-- The TXC unit after reset (R330). -/
def Txc.reset (creditInit : BitVec 3) : Txc where
  firstAck := false
  captureWait := false
  credit := creditInit
  wdtCnt := 0
  fragLen := 0
  fragBusy := false
  fragK := 0
  fragS := 0
  fragType := false

/-- The block with these parameters right after reset number `epoch`, nothing pending (R330). -/
def State.resetWith (params : Params) (epoch : Nat) : State where
  params := params
  jd := Jd.reset epoch
  rx := Rx.reset
  txp := ⟨false, Config.inflightDraw epoch⟩
  txc := Txc.reset params.creditInit
  intr := ⟨0, 0⟩
  rxbuf0 := []
  rxbuf1 := []
  txsrc := []
  raced := []
  draws := 0
  epoch := epoch
  inputs := []
  schedule := []
  out := []

/-- The parameters of the machine: the OPEN constants (R6). -/
def Params.config : Params where
  rxBufSize := Config.rxBufSize
  poolSize := Config.poolSize
  creditInit := Config.creditInit
  tInit := Config.tInit
  tSteady := Config.tSteady

/-- The machine right after reset (R330). -/
def State.reset : State := State.resetWith Params.config 0

end Sys2Proof.Machine
end

