-- ==== Sys2Proof/Machine/Operands.lean ====
section
/-! DEFINITION. Operands: the integer arithmetic of R8, the packet header fields (R82, R86), the fixed tables ZIG (R98) and
IPSF (R129), EXTEND (R172), and the selection of component and table (R170). -/

namespace Sys2Proof

/-- ENC, FLAGS bit 0 (R82). -/
def Packet.enc (p : Packet) : Bool := p.flags.getLsbD 0

/-- FINAL, FLAGS bit 1 (R82). -/
def Packet.final (p : Packet) : Bool := p.flags.getLsbD 1

end Sys2Proof

namespace Sys2Proof.Machine

/-! Arithmetic on int32 (R8). Addition, subtraction and multiplication are those of `BitVec 32`, which wrap. -/

/-- `a >> n` on an int32: rounds toward minus infinity (R8). -/
def asr (a : Word) (n : Nat) : Word := a.sshiftRight n

/-- `tdiv`: truncates toward zero (R8). -/
def tdiv (a b : Word) : Word := a.sdiv b

/-- `clip8` (R8). -/
def clip8 (v : Word) : Byte :=
  if v.toInt < 0 then 0 else if 255 < v.toInt then 255 else v.setWidth 8

/-- `EXTEND(v, s)` (R172). -/
def extend (v : Half) (s : Nat) : Word :=
  if v.toNat < 2 ^ (s - 1) then v.setWidth 32 - (BitVec.ofNat 32 (2 ^ s) - 1) else v.setWidth 32

/-! Packet headers (R80, R86). -/

/-- `hdr_pack` (R86). -/
def hdrPack (type : Byte) (enc final : Bool) (size : Byte) : List Byte :=
  [type, (0 : BitVec 6) ++ BitVec.ofBool final ++ BitVec.ofBool enc, size, 0]

/-- `hdr_unpack` on the four header bytes (R86). -/
def hdrUnpack (b0 b1 b2 _b3 : Byte) : Byte × Bool × Bool × Byte := (b0, b1.getLsbD 0, b1.getLsbD 1, b2)

/-- `hdr_word`: byte 0 is least significant (R64, R86). -/
def hdrWord (b0 b1 b2 b3 : Byte) : Word := wordOfLe b0 b1 b2 b3

/-! Tables. -/

/-- `ZIG`: the raster index of the k-th coefficient in stream order (R98). -/
def zig : List Nat :=
  [0, 1, 8, 16, 9, 2, 3, 10, 17, 24, 32, 25, 18, 11, 4, 5,
   12, 19, 26, 33, 40, 48, 41, 34, 27, 20, 13, 6, 7, 14, 21, 28,
   35, 42, 49, 56, 57, 50, 43, 36, 29, 22, 15, 23, 30, 37, 44, 51,
   58, 59, 52, 45, 38, 31, 39, 46, 53, 60, 61, 54, 47, 55, 62, 63]

/-- `ZIG[k]` (R98). -/
def zigAt (k : Nat) : Nat := zig.getD k 0

/-- `IPSF`, raster order (R129). -/
def ipsf : List Nat :=
  [8192, 11362, 10703, 9632, 8192, 6436, 4433, 2260,
   11362, 15760, 14846, 13361, 11362, 8927, 6149, 3134,
   10703, 14846, 13984, 12585, 10703, 8409, 5792, 2953,
   9632, 13361, 12585, 11326, 9632, 7568, 5213, 2657,
   8192, 11362, 10703, 9632, 8192, 6436, 4433, 2260,
   6436, 8927, 8409, 7568, 6436, 5057, 3483, 1775,
   4433, 6149, 5792, 5213, 4433, 3483, 2399, 1223,
   2260, 3134, 2953, 2657, 2260, 1775, 1223, 623]

/-- `IPSF[z]` (R129). -/
def ipsfAt (z : Nat) : Word := BitVec.ofNat 32 (ipsf.getD z 0)

/-! Tables and components of the JD unit. -/

/-- `H[id][cls]`: id and cls are `false` for 0 and `true` for 1 (R27). -/
def HuffTables.get (h : HuffTables) (id cls : Bool) : Option HuffTable :=
  match id, cls with
  | false, false => h.dc0
  | false, true => h.ac0
  | true, false => h.dc1
  | true, true => h.ac1

/-- `H[id][cls] <- t` (R127). -/
def HuffTables.set (h : HuffTables) (id cls : Bool) (t : HuffTable) : HuffTables :=
  match id, cls with
  | false, false => { h with dc0 := some t }
  | false, true => { h with ac0 := some t }
  | true, false => { h with dc1 := some t }
  | true, true => { h with ac1 := some t }

/-- `Q[i]` (R28). -/
def QuantTables.get (q : QuantTables) (i : BitVec 2) : Option QuantTable :=
  if i = 0 then q.q0 else if i = 1 then q.q1 else if i = 2 then q.q2 else q.q3

/-- `Q[i] <- t` (R129). -/
def QuantTables.set (q : QuantTables) (i : BitVec 2) (t : QuantTable) : QuantTables :=
  if i = 0 then { q with q0 := some t } else if i = 1 then { q with q1 := some t }
  else if i = 2 then { q with q2 := some t } else { q with q3 := some t }

/-- The luma blocks of an MCU, `nby = MSX * MSY` (R170). -/
def Jd.nby (j : Jd) : Nat := j.msx.toNat * j.msy.toNat

/-- `cmp` of a block: 0 Y, 1 Cb, 2 Cr (R170). -/
def Jd.cmp (j : Jd) (blk : Nat) : Nat := if blk < j.nby then 0 else blk - j.nby + 1

/-- The Huffman table id of a block: Y uses 0, Cb and Cr use 1 (R128, R170). -/
def Jd.tableId (j : Jd) (blk : Nat) : Bool := decide (j.cmp blk ≠ 0)

/-- `QTID_cmp` (R170). -/
def Jd.qtid (j : Jd) (cmp : Nat) : BitVec 2 := if cmp = 0 then j.qtid0 else if cmp = 1 then j.qtid1 else j.qtid2

/-- `dcv[cmp]` (R29). -/
def Jd.dcv (j : Jd) (cmp : Nat) : Half := if cmp = 0 then j.dcv0 else if cmp = 1 then j.dcv1 else j.dcv2

/-- `dcv[cmp] <- v` (R173). -/
def Jd.setDcv (j : Jd) (cmp : Nat) (v : Half) : Jd :=
  if cmp = 0 then { j with dcv0 := v } else if cmp = 1 then { j with dcv1 := v } else { j with dcv2 := v }

/-- `8 * MSX`, the MCU width in pixels (R202). -/
def Jd.mx (j : Jd) : Nat := 8 * j.msx.toNat

/-- `8 * MSY`, the MCU height in pixels (R202). -/
def Jd.my (j : Jd) : Nat := 8 * j.msy.toNat

/-- `frame_len[b]` (R37). -/
def Rx.frameLen (r : Rx) (b : Bool) : BitVec 24 := if b then r.frameLen1 else r.frameLen0

/-- `frame_len[b] <- n` (R241). -/
def Rx.setFrameLen (r : Rx) (b : Bool) (n : BitVec 24) : Rx :=
  if b then { r with frameLen1 := n } else { r with frameLen0 := n }

end Sys2Proof.Machine
end

