-- ==== Sys2Proof/Machine/Flags.lean ====
section
/-! DEFINITION. The flags of the block (R44): the interrupt bits and their one update (R42, R314), the interrupt line
(R313), the result codes (R301) and the status words (R22, R36, R40). -/

namespace Sys2Proof.Machine

/-- The bit of an event in INT_STATUS (R42). -/
def Event.bit : Event → Byte
  | .jdDone => 0x01
  | .frameReady => 0x02
  | .frameOverrun => 0x04
  | .rxDrop => 0x08
  | .wdtFire => 0x10
  | .txDone => 0x20
  | .captureGo => 0x40
  | .fragDone => 0x80

/-- One update of INT_STATUS: the bits of `clear` go, then the bits of `set` come; an event wins over a clear (R42). -/
def intUpdate (status clear set : Byte) : Byte := (status &&& ~~~clear) ||| set

/-- `irq` (R313). -/
def irq (i : Intr) : Bool := decide (i.status &&& i.enable ≠ 0)

/-- The numeric result codes (R301). -/
def ResultCode.code : ResultCode → BitVec 4
  | .ok => 0
  | .intr => 1
  | .inp => 2
  | .mem1 => 3
  | .mem2 => 4
  | .par => 5
  | .fmt1 => 6
  | .fmt2 => 7
  | .fmt3 => 8

/-- A flag as one bit. -/
def bit1 (b : Bool) : BitVec 1 := BitVec.ofBool b

/-- JD_STATUS (R22). -/
def jdStatusWord (j : Jd) : Word :=
  (0 : BitVec 22) ++ j.phase ++ j.result.code ++ bit1 j.cmdIgnored ++ bit1 j.done ++ bit1 j.prepared ++ bit1 j.busy

/-- JD_TBLVALID: HVALID[2*id + cls] and QVALID[i] (R23). -/
def tblValidWord (j : Jd) : Word :=
  (0 : BitVec 24) ++ bit1 j.quant.q3.isSome ++ bit1 j.quant.q2.isSome ++ bit1 j.quant.q1.isSome ++
    bit1 j.quant.q0.isSome ++ bit1 j.huff.ac1.isSome ++ bit1 j.huff.dc1.isSome ++ bit1 j.huff.ac0.isSome ++
    bit1 j.huff.dc0.isSome

/-- RX_STATUS (R36). -/
def rxStatusWord (r : Rx) : Word :=
  (0 : BitVec 26) ++ bit1 r.bounds ++ bit1 r.overrun ++ bit1 r.readyIdx ++ bit1 r.fillIdx ++ bit1 r.frameReady ++
    bit1 r.hdrValid

/-- RX_TAKE (R37). -/
def takeWord (r : Rx) : Word := r.takeLen ++ (0 : BitVec 6) ++ bit1 r.takeValid ++ bit1 r.takeIdx

/-- TXC_STATUS; TX_BUSY is the mirror of tx_busy (R40). -/
def txcStatusWord (t : Txc) (p : Txp) : Word :=
  (0 : BitVec 28) ++ bit1 p.busy ++ bit1 t.fragBusy ++ bit1 t.captureWait ++ bit1 t.firstAck

end Sys2Proof.Machine
end

