-- ==== Sys2Proof/Machine/Ops.lean ====
section
/-! DEFINITION. The named operations over memory and registers: the byte spaces (R60 to R63, R69), the source reader
(R150 to R152), the end of a command (R305) with PREPARE's initialisation beside it (R121, R307), dropping a datagram
(R310), and the TXC credit (R263 to R266). -/

namespace Sys2Proof.Machine

/-! Memory. -/

/-- What an unlisted address reads as: no stored byte (R61; assumption log 4). -/
def Memory.unlisted : Option Byte := none

/-- Read one byte. -/
def Memory.read : Memory → Nat → Option Byte
  | [], _ => Memory.unlisted
  | (k, v) :: m, a => if k = a then some v else Memory.read m a

/-- Write one byte. -/
def Memory.write : Memory → Nat → Byte → Memory
  | [], a, v => [(a, v)]
  | (k, w) :: m, a, v =>
    if a < k then (a, v) :: (k, w) :: m
    else if a = k then (a, v) :: m
    else (k, w) :: Memory.write m a v

/-- The canonical form: addresses strictly rising. An entry holds a byte, so none equals what an unlisted address reads as. -/
abbrev Memory.wf (m : Memory) : Prop := (m.map Prod.fst).Pairwise (· < ·)

/-! Updates of one part of the state. -/

def State.setJd (s : State) (j : Jd) : State := { s with jd := j }

def State.setRx (s : State) (r : Rx) : State := { s with rx := r }

def State.setTxp (s : State) (p : Txp) : State := { s with txp := p }

def State.setTxc (s : State) (t : Txc) : State := { s with txc := t }

def State.setIntr (s : State) (i : Intr) : State := { s with intr := i }

/-- `RXBUF[b]` (R61). -/
def State.rxbuf (s : State) (b : Bool) : Memory := if b then s.rxbuf1 else s.rxbuf0

def State.setRxbuf (s : State) (b : Bool) (m : Memory) : State :=
  if b then { s with rxbuf1 := m } else { s with rxbuf0 := m }

def State.setTxsrc (s : State) (m : Memory) : State := { s with txsrc := m }

def State.setRaced (s : State) (l : List Host.Cell) : State := { s with raced := l }

/-- One free choice has been made. -/
def State.draw (s : State) : State := { s with draws := s.draws + 1 }

/-- `emit` on an output port (R9). -/
def State.emit (s : State) (o : Output) : State := { s with out := o :: s.out }

/-- Set an INT_STATUS bit (R42). -/
def State.event (s : State) (e : Event) : State :=
  s.setIntr { s.intr with status := intUpdate s.intr.status 0 e.bit }

/-! The byte spaces. -/

/-- `MemRead(RXBUF[b], a, 1)`: the stored byte, or the free value of an address nothing has written (R61). -/
def State.rxByte (s : State) (b : Bool) (a : Nat) : Byte :=
  ((s.rxbuf b).read a).getD (Config.rxbufDraw s.epoch b.toNat a)

/-- One byte of TXSRC (R73). -/
def State.txsrcByte (s : State) (a : Nat) : Byte := (s.txsrc.read a).getD (Config.txsrcDraw a)

/-- `MemWrite(RXBUF[b], a, 1, v)` by RX. While a JD command runs on that buffer the old value stays readable (R69). -/
def rxWrite (b : Bool) (a : Nat) (v : Byte) (s : State) : State :=
  let s1 := if s.jd.busy ∧ s.jd.srcIdx = b then s.setRaced ((a, s.rxByte b a) :: s.raced) else s
  s1.setRxbuf b ((s1.rxbuf b).write a v)

/-- `MemWrite` of consecutive bytes from address `a` on (R236, R240). -/
def rxWriteBytes (b : Bool) (a : Nat) : List Byte → State → State
  | [], s => s
  | v :: vs, s => rxWriteBytes b (a + 1) vs (rxWrite b a v s)

/-- The camera's write of consecutive bytes of TXSRC (R73). -/
def cameraWrite (a : Nat) : List Byte → State → State
  | [], s => s
  | v :: vs, s => cameraWrite (a + 1) vs (s.setTxsrc (s.txsrc.write a v))

/-- The values RX has overwritten at an address of the buffer of the running command. -/
def State.oldValues (s : State) (a : Nat) : List Byte := (s.raced.filter fun c => c.1 == a).map Prod.snd

/-- A JD read of one byte of `RXBUF[src_idx]`. A byte RX rewrote during the command gives an old value or the new one; the
choice is free (R69). -/
def jdRead (a : Nat) (s : State) : Byte × State :=
  let now := s.rxByte s.jd.srcIdx a
  match s.oldValues a with
  | [] => (now, s)
  | olds => ((now :: olds).getD (Config.raceDraw s.draws % (olds.length + 1)) now, s.draw)

/-! The outcome of a part of a JD command. -/

/-- A part of a JD command goes on with a value, or ends the command with a result code (`raise` or completion, R9, R305),
or faults. -/
inductive Res (α : Type) where
  | ok (a : α) (s : State)
  | ends (r : ResultCode) (s : State)
  | fault (f : Fault)
  deriving Repr

/-- Go on with the next part. -/
def Res.bind {α β : Type} (x : Res α) (k : α → State → Res β) : Res β :=
  match x with
  | .ok a s => k a s
  | .ends r s => .ends r s
  | .fault f => .fault f

/-- `END(result)`, the end of every JD command (R305). The command is a PREPARE while PHASE is 1 (R22, R120). -/
def endCommand (r : ResultCode) (s : State) : State :=
  ((s.setJd { s.jd with
      result := r
      prepared := if s.jd.phase = 1 then decide (r = .ok) else s.jd.prepared
      busy := false
      done := true
      phase := 0
      mode := .idle }).setRaced []).event .jdDone

/-- The next state of a part of a JD command that runs as one step. -/
def Res.finish (x : Res Unit) : Host.Outcome State Fault Refusal :=
  match x with
  | .ok _ s => .next s
  | .ends r s => .next (endCommand r s)
  | .fault f => .fault f

/-- An accepted command: BUSY 1, DONE 0, CMD_IGNORED 0 (R21). -/
def acceptCommand (s : State) : State :=
  (s.setJd { s.jd with busy := true, done := false, cmdIgnored := false }).setRaced []

/-- A command that is not accepted: CMD_IGNORED 1 and nothing else (R21). -/
def ignoreCommand (s : State) : State := s.setJd { s.jd with cmdIgnored := true }

/-- PREPARE's initialisation (R121), which is also the recovery from an error (R307); PHASE 1 (R120). -/
def prepareInit (b : Bool) (s : State) : State :=
  s.setJd { s.jd with
    phase := 1
    srcIdx := b
    srcLen := s.rx.frameLen b
    srcPos := 0
    huff := ⟨none, none, none, none⟩
    quant := ⟨none, none, none, none⟩
    used := 0
    width := 0
    height := 0
    msx := 0
    msy := 0
    nrst := 0
    qtid0 := 0
    qtid1 := 0
    qtid2 := 0
    prepared := false
    msk := 0
    mode := .soi }

/-- DECOMP's start: PREPARED 0 and PHASE 2 (R200), then R201; the MCU loop begins at (0, 0) (R202). -/
def decompInit (s : State) : State :=
  s.setJd { s.jd with
    prepared := false
    phase := 2
    dcv0 := 0
    dcv1 := 0
    dcv2 := 0
    rst := 0
    rsc := 0
    posX := 0
    posY := 0
    loopX := 0
    loopY := 0
    mode := .mcu }

/-! The source reader. -/

/-- `NextByte()`: a byte, or `none` for EXHAUSTED (R150). -/
def nextByte (s : State) : Res (Option Byte) :=
  if s.jd.srcPos.toNat < s.jd.srcLen.toNat then
    if s.jd.srcPos.toNat < s.params.rxBufSize then
      let r := jdRead s.jd.srcPos.toNat s
      .ok (some r.1) (r.2.setJd { r.2.jd with srcPos := r.2.jd.srcPos + 1 })
    else .fault .rxbufAddress
  else .ok none s

/-- `NextByte()` with INP on EXHAUSTED (R150). -/
def needByte (s : State) : Res Byte :=
  (nextByte s).bind fun b s =>
    match b with
    | some v => .ok v s
    | none => .ends .inp s

/-- `NextByte() x n` (R122 to R124). -/
def readBytes : Nat → State → Res (List Byte)
  | 0, s => .ok [] s
  | n + 1, s => (needByte s).bind fun b s => (readBytes n s).bind fun bs s => .ok (b :: bs) s

/-- `repeat n times: NextByte()` (R133). -/
def skipBytes : Nat → State → Res Unit
  | 0, s => .ok () s
  | n + 1, s => (needByte s).bind fun _ s => skipBytes n s

/-- `FetchData()` (R151). -/
def fetchData (s : State) : Res Byte :=
  (needByte s).bind fun b s =>
    if b = 0xFF then (needByte s).bind fun c s => if c = 0 then .ok b s else .ends .fmt1 s
    else .ok b s

/-- One bit more at the low end of `v`: the bit of `c` that `m` selects (R152, R153). -/
def pushBit (v : Half) (m c : Byte) : Half := (v <<< 1) ||| (if c &&& m ≠ 0 then 1 else 0)

/-- The loop of BITEXT on its local `v`, `m`, `c` (R152). -/
def bitextLoop : Nat → Half → Byte → Byte → State → Res (Half × Byte × Byte)
  | 0, v, m, c, s => .ok (v, m, c) s
  | n + 1, v, m, c, s =>
    if m = 0 then (fetchData s).bind fun c s => bitextLoop n (pushBit v 0x80 c) 0x40 c s
    else bitextLoop n (pushBit v m c) (m >>> 1) c s

/-- `BITEXT(n)` (R152). -/
def bitext (n : Nat) (s : State) : Res Half :=
  (bitextLoop n 0 s.jd.msk s.jd.cur s).bind fun r s =>
    .ok r.1 (s.setJd { s.jd with msk := r.2.1, cur := r.2.2 })

/-- A HUFFEXT begins: `v <- 0`, `m <- msk`, `c <- cur`, `j <- 0` (R153). -/
def Jd.newReader (j : Jd) : HuffReader := ⟨0, j.msk, j.cur, 0, 0⟩

/-- `alloc(n)` of the table arena (R62). -/
def alloc (n : Nat) (s : State) : Option State :=
  let m := (n + 3) / 4 * 4
  if m ≤ s.params.poolSize.toNat - s.jd.used.toNat then
    some (s.setJd { s.jd with used := BitVec.ofNat 16 (s.jd.used.toNat + m) })
  else none

/-- `alloc(n) or raise MEM1` (R127, R129). -/
def allocOrMem1 (n : Nat) (s : State) : Res Unit :=
  match alloc n s with
  | some s => .ok () s
  | none => .ends .mem1 s

/-! RX. -/

/-- `drop(reason)` (R310). -/
def dropDatagram (r : DropReason) (s : State) : State :=
  (s.setRx { s.rx with
      dropCnt := s.rx.dropCnt + 1
      bounds := s.rx.bounds || decide (r = .bounds) }).event .rxDrop

/-! TXC. -/

/-- `RELEASE()` (R265). -/
def release (s : State) : State :=
  let c := min (s.txc.credit.toNat + 1) Config.creditMax
  if s.txc.captureWait then
    (s.setTxc { s.txc with credit := BitVec.ofNat 3 (c - 1), captureWait := false }).event .captureGo
  else s.setTxc { s.txc with credit := BitVec.ofNat 3 c }

/-- `TXC.ACK()` (R263). -/
def txcAck (s : State) : State := release (s.setTxc { s.txc with wdtCnt := 0, firstAck := true })

/-- The watchdog period in force (R266, R267). -/
def State.period (s : State) : Word := if s.txc.firstAck then s.params.tSteady else s.params.tInit

/-- `on TICK` (R266). -/
def tick (s : State) : State :=
  let n := s.txc.wdtCnt + 1
  if s.period.toNat ≤ n.toNat then release ((s.setTxc { s.txc with wdtCnt := 0 }).event .wdtFire)
  else s.setTxc { s.txc with wdtCnt := n }

end Sys2Proof.Machine
end

