-- ==== Sys2Proof/Machine/Idct.lean ====
section
/-! DEFINITION. The inverse transform (R177 to R181), and the steps of JD that move from one block to the next (R170). -/

namespace Sys2Proof.Machine

/-- The constants of the butterfly, times 4096 (R177). -/
def bflyM13 : Word := 5792
def bflyM2 : Word := 4433
def bflyM4 : Word := 10703
def bflyM5 : Word := 7568

/-- The odd part of the butterfly: `v4`, `v5`, `v6`, `v7` from `x[7]`, `x[1]`, `x[5]`, `x[3]` (R177). -/
def bflyOdd (x7 x1 x5 x3 : Word) : Word × Word × Word × Word :=
  let t10 := x1 - x7
  let t11 := x1 + x7
  let t12 := x5 - x3
  let s7 := x3 + x5
  let u5 := asr ((t11 - s7) * bflyM13) 12
  let v7 := s7 + t11
  let t13 := asr ((t10 + t12) * bflyM5) 12
  let u4 := t13 - asr (t10 * bflyM2) 12
  let v6 := t13 - asr (t12 * bflyM4) 12 - v7
  let v5 := u5 - v6
  let v4 := u4 - v5
  (v4, v5, v6, v7)

/-- The even part of the butterfly: `v0`, `v1`, `v2`, `v3` from `x[0]`, `x[2]`, `x[4]`, `x[6]` (R177). -/
def bflyEven (x0 x2 x4 x6 : Word) : Word × Word × Word × Word :=
  let t10 := x0 + x4
  let t12 := x0 - x4
  let u11 := asr ((x2 - x6) * bflyM13) 12
  let u3 := x6 + x2
  let t11 := u11 - u3
  (t10 + u3, t11 + t12, t12 - t11, t10 - u3)

/-- `BFLY(x[0..7])` (R177). -/
def bfly (x : Vector Word 8) : Vector Word 8 :=
  let e := bflyEven x[0] x[2] x[4] x[6]
  let o := bflyOdd x[7] x[1] x[5] x[3]
  #v[e.1 + o.2.2.2, e.2.1 + o.2.2.1, e.2.2.1 + o.2.1, e.2.2.2 + o.1,
     e.2.2.2 - o.1, e.2.2.1 - o.2.1, e.2.1 - o.2.2.1, e.1 - o.2.2.2]

/-- Row `r` of a coefficient buffer. -/
def rowOf (t : Vector Word 64) (r : Fin 8) : Vector Word 8 := Vector.ofFn fun k => t[8 * r.val + k.val]

/-- Column `c` of a coefficient buffer, with the level shift on element 0 (R179). -/
def columnOf (t : Vector Word 64) (c : Fin 8) : Vector Word 8 :=
  Vector.ofFn fun k => if k.val = 0 then t[8 * k.val + c.val] + 32768 else t[8 * k.val + c.val]

/-- The row pass, in place (R178). -/
def rowPass (t : Vector Word 64) : Vector Word 64 :=
  let rows : Vector (Vector Word 8) 8 := Vector.ofFn fun r => bfly (rowOf t r)
  Vector.ofFn fun i => rows[i.val / 8][i.val % 8]

/-- The column pass with level shift, descale and clip (R179). -/
def columnPass (t : Vector Word 64) : Block :=
  let cols : Vector (Vector Word 8) 8 := Vector.ofFn fun c => bfly (columnOf t c)
  Vector.ofFn fun i => clip8 (asr cols[i.val % 8][i.val / 8] 8)

/-- The flat block of the DC-only fast path (R180). -/
def flatBlock (t : Vector Word 64) : Block := Vector.replicate 64 (clip8 (asr (t[0] + 32768) 8))

/-- `TRANSFORM(blk, ac)` on the unit: the fast path, or the two passes (R178 to R181). -/
def transform (j : Jd) : Jd :=
  if j.acAny then
    let t := rowPass j.tmp
    { j with tmp := t, mcubuf := j.mcubuf.setIfInBounds j.blk (columnPass t) }
  else { j with mcubuf := j.mcubuf.setIfInBounds j.blk (flatBlock j.tmp) }

/-- The first HUFFEXT of a block: its DC symbol (R170, R171). -/
def startBlock (blk : Nat) (j : Jd) : Jd := { j with blk := blk, mode := .huffDc, hx := j.newReader }

/-- TRANSFORM of the block, then the next block of the MCU, or MCU_OUTPUT after the last (R170). -/
def transformStep (s : State) : State :=
  let j := transform s.jd
  if j.blk + 1 < j.nby + 2 then s.setJd (startBlock (j.blk + 1) j)
  else s.setJd { j with mode := .output }

end Sys2Proof.Machine
end

