-- ==== Sys2Proof/Machine/Tile.lean ====
section
/-! DEFINITION. The MCU loop and the tile output of DECOMP (R202 to R211). -/

namespace Sys2Proof.Machine

/-- The MCU loop head (R202): the end of the image ends DECOMP with OK (R211); the end of a row steps down; else JD_POS is
set, the restart counters move, and the MCU begins with its restart marker or its first block. -/
def mcuStep (s : State) : Res Unit :=
  if s.jd.loopY.toNat < s.jd.height.toNat then
    if s.jd.loopX.toNat < s.jd.width.toNat then
      let j := { s.jd with posX := s.jd.loopX.setWidth 16, posY := s.jd.loopY.setWidth 16 }
      if j.nrst = 0 then .ok () (s.setJd (startBlock 0 j))
      else if j.rst = j.nrst then
        .ok () (s.setJd { j with rst := j.rst + 1, rsc := j.rsc + 1, mode := .restart })
      else .ok () (s.setJd (startBlock 0 { j with rst := j.rst + 1 }))
    else .ok () (s.setJd { s.jd with loopX := 0, loopY := s.jd.loopY + BitVec.ofNat 17 s.jd.my })
  else .ends .ok s

/-- `rx`, the width of the tile in pixels (R204). -/
def tileWidth (j : Jd) : Nat :=
  if j.loopX.toNat + j.mx ≤ j.width.toNat then j.mx else j.width.toNat - j.loopX.toNat

/-- `ry`, the height of the tile in pixels (R204). -/
def tileHeight (j : Jd) : Nat :=
  if j.loopY.toNat + j.my ≤ j.height.toNat then j.my else j.height.toNat - j.loopY.toNat

/-- The tile rectangle (R204). -/
def tileRect (j : Jd) : Rect where
  left := BitVec.ofNat 16 j.loopX.toNat
  top := BitVec.ofNat 16 j.loopY.toNat
  right := BitVec.ofNat 16 (j.loopX.toNat + tileWidth j - 1)
  bottom := BitVec.ofNat 16 (j.loopY.toNat + tileHeight j - 1)

/-- `mcubuf[b][i]`. -/
def Jd.sample (j : Jd) (b i : Nat) : Byte := (j.mcubuf.toList.getD b (Vector.replicate 64 0)).toList.getD i 0

/-- `yy`, `cb` and `cr` of the pixel at (ix, iy) within the MCU (R205). -/
def Jd.lumaAt (j : Jd) (ix iy : Nat) : Word :=
  (j.sample (ix / 8 + j.msx.toNat * (iy / 8)) (8 * (iy % 8) + ix % 8)).setWidth 32

def Jd.chromaAt (j : Jd) (blk ix iy : Nat) : Word :=
  (j.sample blk (8 * (iy / 2 ^ (j.msy.toNat - 1)) + ix / 2 ^ (j.msx.toNat - 1))).setWidth 32 - 128

/-- YCbCr to RGB with the dither terms added before the clip (R206, R207). -/
def yccToRgb (yy cb cr bayerR bayerG bayerB : Word) : Byte × Byte × Byte :=
  (clip8 (yy + tdiv (1435 * cr) 1024 + bayerR),
   clip8 (yy - tdiv (352 * cb + 731 * cr) 1024 + bayerG),
   clip8 (yy + tdiv (1814 * cb) 1024 + bayerB))

/-- `RGB565(R, G, B)` (R208). -/
def rgb565 (r g b : Byte) : Half :=
  ((r &&& 0xF8).setWidth 16 <<< 8) ||| ((g &&& 0xFC).setWidth 16 <<< 3) ||| (b >>> 3).setWidth 16

/-- A dither term: BAYER where the chroma is subsampled, 0 in 4:4:4 (R207). -/
def Jd.bayerTerm (j : Jd) (ix iy ch : Nat) : Word :=
  if 1 < j.nby then BitVec.ofInt 32 (Config.bayer ix iy ch) else 0

/-- The pixel word at (ix, iy) within the MCU (R205 to R208). -/
def Jd.pixel (j : Jd) (ix iy : Nat) : Half :=
  let c := yccToRgb (j.lumaAt ix iy) (j.chromaAt j.nby ix iy) (j.chromaAt (j.nby + 1) ix iy)
    (j.bayerTerm ix iy 0) (j.bayerTerm ix iy 1) (j.bayerTerm ix iy 2)
  rgb565 c.1 c.2.1 c.2.2

/-- The tile buffer after the crop of R209: the first rx·ry entries are the pixels in raster order, the rest stay. -/
def croppedTile (j : Jd) : Vector Half 256 :=
  Vector.ofFn fun i =>
    if i.val < tileWidth j * tileHeight j then j.pixel (i.val % tileWidth j) (i.val / tileWidth j) else j.tile[i]

/-- `MCU_OUTPUT`: the rectangle, the pixels, PHASE 3 and the tile on its port (R204 to R209). -/
def outputStep (s : State) : State :=
  let t := croppedTile s.jd
  (s.setJd { s.jd with rect := tileRect s.jd, tile := t, phase := 3, mode := .tile }).emit
    (.tile (tileRect s.jd) (t.toList.take (tileWidth s.jd * tileHeight s.jd)))

/-- The tile answer (R210): accept goes on with the next MCU (R202), cancel ends DECOMP with INTR. With no tile pending it is
ignored (R331). -/
def answerTile (accept : Bool) (s : State) : State :=
  if s.jd.mode = .tile then
    if accept then
      s.setJd { s.jd with phase := 2, loopX := s.jd.loopX + BitVec.ofNat 17 s.jd.mx, mode := .mcu }
    else endCommand .intr s
  else s

end Sys2Proof.Machine
end

