-- ==== Sys2Proof/Machine/Commands.lean ====
section
/-! DEFINITION. The meanings of the command words (R99, R100). -/

namespace Sys2Proof.Machine

/-- An accepted JD command runs; one written while BUSY is 1 is not accepted (R21). `run` is the command's initialisation; that
it happens in the step of the host's write is the model's choice (DESIGN CHOICE, assumption log 2). -/
def jdCommand (run : State → State) (s : State) : Host.Outcome State Fault Refusal :=
  if s.jd.busy then .next (ignoreCommand s) else .next (run (acceptCommand s))

/-- JD_NOP: no effect (R21). -/
def execJdNop (_buf : Bool) (s : State) : Host.Outcome State Fault Refusal := .next s

/-- JD_PREPARE (R120, R121). -/
def execJdPrepare (buf : Bool) (s : State) : Host.Outcome State Fault Refusal := jdCommand (prepareInit buf) s

/-- What DECOMP does once accepted: PAR without a fresh PREPARE, else it starts (R200, R201). -/
def decompStart (s : State) : State := if s.jd.prepared then decompInit s else endCommand .par s

/-- JD_DECOMP; BUF is ignored (R200). -/
def execJdDecomp (_buf : Bool) (s : State) : Host.Outcome State Fault Refusal := jdCommand decompStart s

/-- JD_RESERVED: not accepted (R21). -/
def execJdReserved (_buf : Bool) (s : State) : Host.Outcome State Fault Refusal := .next (ignoreCommand s)

/-- `TAKE()` (R243). -/
def take (s : State) : State :=
  if s.rx.frameReady then
    s.setRx { s.rx with
      takeIdx := s.rx.readyIdx
      takeValid := true
      takeLen := s.rx.frameLen s.rx.readyIdx
      fillIdx := !s.rx.fillIdx
      frameReady := false }
  else s.setRx { s.rx with takeIdx := false, takeValid := false, takeLen := 0 }

/-- CLR_STICKY (R35). -/
def clrSticky (s : State) : State := s.setRx { s.rx with overrun := false, bounds := false }

/-- RX_TAKE; with CLR_STICKY also 1, TAKE happens first (R35, R243). -/
def execRxTake (clr : Bool) (s : State) : Host.Outcome State Fault Refusal :=
  .next (if clr then clrSticky (take s) else take s)

/-- RX_CLR_STICKY (R35). -/
def execRxClrSticky (s : State) : Host.Outcome State Fault Refusal := .next (clrSticky s)

/-- TXC_CAPTURE_REQ (R264). -/
def execTxcCaptureReq (s : State) : Host.Outcome State Fault Refusal :=
  if s.txc.captureWait then .next s
  else if s.txc.credit = 0 then .next (s.setTxc { s.txc with captureWait := true })
  else .next ((s.setTxc { s.txc with credit := s.txc.credit - 1 }).event .captureGo)

/-- TXC_FRAG_START; ignored while FRAG_BUSY is 1 (R40, R244). -/
def execTxcFragStart (frame : Bool) (s : State) : Host.Outcome State Fault Refusal :=
  if s.txc.fragBusy then .next s
  else
    let t := { s.txc with fragS := s.txc.fragLen, fragK := 0, fragType := frame }
    if t.fragS = 0 then .next ((s.setTxc t).event .fragDone)
    else .next (s.setTxc { t with fragBusy := true })

/-- INT_W1C: a write of INT_STATUS (R42, R314). -/
def execIntW1c (clear : Byte) (s : State) : Host.Outcome State Fault Refusal :=
  .next (s.setIntr { s.intr with status := intUpdate s.intr.status clear 0 })

end Sys2Proof.Machine
end

