-- ==== Sys2Proof/Machine/Entropy.lean ====
section
/-! DEFINITION. The meanings of the entropy byte pairs (R151, R156) and of the Huffman symbols (R171 to R176). JD has read
the pair, or extracted the symbol, when a meaning begins. -/

namespace Sys2Proof.Machine

/-- The byte FetchData returns goes to the HUFFEXT in progress: `c <- byte`, `m <- 0x80` (R153). -/
def feedReader (b : Byte) (s : State) : State := s.setJd { s.jd with hx := { s.jd.hx with c := b, m := 0x80 } }

/-- ED_STUFFED_FF: the data byte FF (R151). -/
def execEdStuffedFF (s : State) : Host.Outcome State Fault Refusal := .next (feedReader 0xFF s)

/-- ED_MARKER_IN_DATA: FMT1 (R151, R156). -/
def execEdMarkerInData (_xx : Byte) (s : State) : Host.Outcome State Fault Refusal := (Res.ends .fmt1 s).finish

/-- The component of the block being decoded (R170). -/
def Jd.blockCmp (j : Jd) : Nat := j.cmp j.blk

/-- The de-quantizer `qt` of the block being decoded (R170). -/
def blockQuant (s : State) : Res QuantTable :=
  match s.jd.quant.get (s.jd.qtid s.jd.blockCmp) with
  | some q => .ok q s
  | none => .fault .tableAbsent

/-- `(c * q) >> 8` on int32 (R174, R176). -/
def dequant (c q : Word) : Word := asr (c * q) 8

/-- After the DC difference: `tmp[0]` from the full sum `d`, `tmp[1..63]` 0, and the AC loop begins at i = 1 (R171, R174). -/
def startAc (d : Word) (qt : QuantTable) (j : Jd) : Jd :=
  { j with
    tmp := (Vector.replicate 64 0).set 0 (dequant d qt[0])
    coefIdx := 1
    acAny := false
    mode := .huffAc
    hx := j.newReader }

/-- DC_CLASS0: the difference is 0, no raw bits, the predictor is not written (R171). -/
def execDcClass0 (s : State) : Host.Outcome State Fault Refusal :=
  ((blockQuant s).bind fun qt s =>
    .ok () (s.setJd (startAc ((s.jd.dcv s.jd.blockCmp).signExtend 32) qt s.jd))).finish

/-- DC_CLASS: the raw bits, EXTEND, the predictor's low 16 bits stored, the full sum used (R171 to R174). -/
def execDcClass (ssss : BitVec 4) (s : State) : Host.Outcome State Fault Refusal :=
  ((blockQuant s).bind fun qt s => (bitext ssss.toNat s).bind fun v s =>
    let cmp := s.jd.blockCmp
    let d := (s.jd.dcv cmp).signExtend 32 + extend v ssss.toNat
    .ok () (s.setJd (startAc d qt (s.jd.setDcv cmp (d.setWidth 16))))).finish

/-- The AC loop is left: TRANSFORM comes next (R175). -/
def leaveAc (s : State) : State := s.setJd { s.jd with mode := .transform }

/-- `i <- i + z`, with FMT1 where a run that is not 0 reaches position 64 (R175). -/
def acRun (rrrr : BitVec 4) (s : State) : Res Unit :=
  if rrrr ≠ 0 ∧ 64 ≤ s.jd.coefIdx + rrrr.toNat then .ends .fmt1 s
  else .ok () (s.setJd { s.jd with coefIdx := s.jd.coefIdx + rrrr.toNat })

/-- `i <- i + 1`; the loop is left at 64, else the next symbol is extracted (R175). -/
def acNext (s : State) : State :=
  if 64 ≤ s.jd.coefIdx + 1 then leaveAc (s.setJd { s.jd with coefIdx := s.jd.coefIdx + 1 })
  else s.setJd { s.jd with coefIdx := s.jd.coefIdx + 1, mode := .huffAc, hx := s.jd.newReader }

/-- `tmp[ZIG[i]] <- (e * qt[ZIG[i]]) >> 8` and `ac <- true` (R175, R176). -/
def acStore (e : Word) (qt : QuantTable) (j : Jd) : Jd :=
  let z := zigAt j.coefIdx
  { j with tmp := j.tmp.setIfInBounds z (dequant e (qt.toList.getD z 0)), acAny := true }

/-- AC_EOB (R175). -/
def execAcEob (s : State) : Host.Outcome State Fault Refusal := .next (leaveAc s)

/-- AC_ZRL: skips 16 positions (R175). -/
def execAcZrl (s : State) : Host.Outcome State Fault Refusal :=
  ((acRun 15 s).bind fun _ s => .ok () (acNext s)).finish

/-- AC_RUN_SKIP: skips RRRR + 1 positions (R175). -/
def execAcRunSkip (rrrr : BitVec 4) (s : State) : Host.Outcome State Fault Refusal :=
  ((acRun rrrr s).bind fun _ s => .ok () (acNext s)).finish

/-- AC_RUN_SIZE: the run check first, then the raw bits and the coefficient (R175, R176). -/
def execAcRunSize (rrrr ssss : BitVec 4) (s : State) : Host.Outcome State Fault Refusal :=
  ((acRun rrrr s).bind fun _ s => (blockQuant s).bind fun qt s => (bitext ssss.toNat s).bind fun v s =>
    .ok () (acNext (s.setJd (acStore (extend v ssss.toNat) qt s.jd)))).finish

/-- AC_BAD_CLASS: FMT1, before any raw bit is read (R175). -/
def execAcBadClass (rrrr _ssss : BitVec 4) (s : State) : Host.Outcome State Fault Refusal :=
  ((acRun rrrr s).bind fun _ s => .ends .fmt1 s).finish

end Sys2Proof.Machine
end

