-- ==== Sys2Proof/Machine/Markers.lean ====
section
/-! DEFINITION. The meanings of the JPEG markers (R122 to R133, R154). JD has read the marker, and Lseg in the header, when
a meaning begins: POS stands after them. -/

namespace Sys2Proof.Machine

/-- The marker loop goes on (R123). -/
def nextMarker (s : State) : Res Unit := .ok () (s.setJd { s.jd with mode := .marker })

/-- The Lseg check of the marker loop head, then the segment with `len = Lseg - 2` (R123). -/
def withSegment (lseg : Half) (k : Nat → State → Res Unit) (s : State) : Res Unit :=
  if lseg.toNat ≤ 2 then .ends .fmt1 s else k (lseg.toNat - 2) s

/-- The segment load (R124), then the segment's own rule on its bytes. -/
def withBody (lseg : Half) (k : List Byte → State → Res Unit) (s : State) : Res Unit :=
  withSegment lseg (fun len s =>
    if Config.inbufSize < len then .ends .mem2 s else (readBytes len s).bind k) s

/-- A big-endian 16-bit field of a segment (R64). -/
def half (seg : List Byte) (i : Nat) : Half := seg.getD i 0 ++ seg.getD (i + 1) 0

/-- SOF0: the frame geometry, sampling and table ids, each field written before the next check (R125). -/
def sof0Body (seg : List Byte) (s : State) : Res Unit :=
  let b := fun i => seg.getD i 0
  if seg.length < 15 then .ends .fmt1 s
  else
    let s := s.setJd { s.jd with height := half seg 1, width := half seg 3 }
    if b 5 ≠ 3 then .ends .fmt3 s
    else if b 7 ≠ 0x11 ∧ b 7 ≠ 0x21 ∧ b 7 ≠ 0x22 then .ends .fmt3 s
    else
      let s := s.setJd { s.jd with msx := (b 7).extractLsb' 4 2, msy := (b 7).extractLsb' 0 2 }
      if 3 < (b 8).toNat then .ends .fmt3 s
      else
        let s := s.setJd { s.jd with qtid0 := (b 8).extractLsb' 0 2 }
        if b 10 ≠ 0x11 ∨ 3 < (b 11).toNat then .ends .fmt3 s
        else
          let s := s.setJd { s.jd with qtid1 := (b 11).extractLsb' 0 2 }
          if b 13 ≠ 0x11 ∨ 3 < (b 14).toNat then .ends .fmt3 s
          else nextMarker (s.setJd { s.jd with qtid2 := (b 14).extractLsb' 0 2 })

/-- DRI: the restart interval (R126). -/
def driBody (seg : List Byte) (s : State) : Res Unit :=
  if seg.length < 2 then .ends .fmt1 s else nextMarker (s.setJd { s.jd with nrst := half seg 0 })

/-- The canonical code words of the counts of one length after another, from the code `hc` on (R97). -/
def codesFrom : List Byte → Half → List Half
  | [], _ => []
  | n :: bits, hc =>
    ((List.range n.toNat).map fun k => hc + BitVec.ofNat 16 k) ++ codesFrom bits ((hc + BitVec.ofNat 16 n.toNat) <<< 1)

/-- `canonical codes of bits` (R97). -/
def canonicalCodes (bits : List Byte) : List Half := codesFrom bits 0

/-- `np`, the sum of the counts (R27). -/
def codeCount (bits : List Byte) : Nat := (bits.map BitVec.toNat).sum

/-- One table of a DHT segment, the class and id byte first: its checks and allocations in R127's order, then the table and
the bytes after it. -/
def dhtTable (seg : List Byte) (s : State) : Res (List Byte) :=
  if seg.length < 17 then .ends .fmt1 s
  else
    let d := seg.getD 0 0
    let bits := (seg.drop 1).take 16
    let rest := seg.drop 17
    let np := codeCount bits
    if d &&& 0xEE ≠ 0 then .ends .fmt1 s
    else
      (allocOrMem1 16 s).bind fun _ s => (allocOrMem1 (2 * np) s).bind fun _ s =>
        if rest.length < np then .ends .fmt1 s
        else (allocOrMem1 np s).bind fun _ s =>
          let vals := rest.take np
          if d &&& 0x10 = 0 ∧ vals.any (fun v => decide (11 < v.toNat)) then .ends .fmt1 s
          else
            .ok (rest.drop np) (s.setJd { s.jd with
              huff := s.jd.huff.set (d.getLsbD 0) (d.getLsbD 4) ⟨bits, canonicalCodes bits, vals⟩ })

/-- `while n > 0` over the tables of a segment; a table takes at least one byte, so the length of the segment bounds the
number of rounds (R127, R129). -/
def tableLoop (table : List Byte → State → Res (List Byte)) : Nat → List Byte → State → Res Unit
  | 0, _, s => .ok () s
  | n + 1, seg, s => if seg = [] then .ok () s else (table seg s).bind fun rest s => tableLoop table n rest s

/-- DHT (R127, R128). -/
def dhtBody (seg : List Byte) (s : State) : Res Unit :=
  (tableLoop dhtTable seg.length seg s).bind fun _ s => nextMarker s

/-- A quantization table from its 64 values in zig-zag order: entry `z` is the value at `z`'s place in ZIG times IPSF[z]
(R91, R98, R129). -/
def quantTable (vals : List Byte) : QuantTable :=
  Vector.ofFn fun z => (vals.getD (zig.idxOf z.val) 0).setWidth 32 * ipsfAt z.val

/-- One table of a DQT segment: its checks and its allocation, then the table and the bytes after it (R129). -/
def dqtTable (seg : List Byte) (s : State) : Res (List Byte) :=
  if seg.length < 65 then .ends .fmt1 s
  else
    let d := seg.getD 0 0
    if d &&& 0xF0 ≠ 0 then .ends .fmt1 s
    else if 3 < (d &&& 0x0F).toNat then .ends .fmt1 s
    else (allocOrMem1 256 s).bind fun _ s =>
      .ok (seg.drop 65) (s.setJd { s.jd with
        quant := s.jd.quant.set (d.extractLsb' 0 2) (quantTable ((seg.drop 1).take 64)) })

/-- DQT (R129). -/
def dqtBody (seg : List Byte) (s : State) : Res Unit :=
  (tableLoop dqtTable seg.length seg s).bind fun _ s => nextMarker s

/-- The checks of R130 for one component of the scan: its selectors, its Huffman tables by position, its quantization
table. -/
def scanComponent (cmp : Nat) (sel : Byte) (j : Jd) : Option ResultCode :=
  let id := decide (cmp ≠ 0)
  if sel ≠ 0x00 ∧ sel ≠ 0x11 then some .fmt3
  else if ¬ ((j.huff.get id false).isSome ∧ (j.huff.get id true).isSome) then some .fmt1
  else if ¬ (j.quant.get (j.qtid cmp)).isSome then some .fmt1
  else none

/-- The checks of R130 in order: `none` where they all pass. -/
def sosChecks (seg : List Byte) (j : Jd) : Option ResultCode :=
  if j.width = 0 ∨ j.height = 0 then some .fmt1
  else if seg.length < 7 then some .fmt1
  else if seg.getD 0 0 ≠ 3 then some .fmt3
  else match scanComponent 0 (seg.getD 2 0) j with
    | some r => some r
    | none => match scanComponent 1 (seg.getD 4 0) j with
      | some r => some r
      | none => match scanComponent 2 (seg.getD 6 0) j with
        | some r => some r
        | none => if j.nby = 0 then some .fmt1 else none

/-- SOS: the checks (R130), then PREPARE ends with OK and an empty bit reader (R131). -/
def sosBody (seg : List Byte) (s : State) : Res Unit :=
  match sosChecks seg s.jd with
  | some r => .ends r s
  | none => .ends .ok (s.setJd { s.jd with msk := 0 })

/-- A rejected frame type: FMT3, the body not read (R132). -/
def rejectSegment (lseg : Half) (s : State) : Res Unit := withSegment lseg (fun _ s => .ends .fmt3 s) s

/-- MK_SOI as the first two bytes (R122). -/
def execMkSoi (s : State) : Host.Outcome State Fault Refusal := (nextMarker s).finish

/-- MK_SOF0 (R125). -/
def execMkSof0 (lseg : Half) (s : State) : Host.Outcome State Fault Refusal := (withBody lseg sof0Body s).finish

/-- MK_DHT (R127, R128). -/
def execMkDht (lseg : Half) (s : State) : Host.Outcome State Fault Refusal := (withBody lseg dhtBody s).finish

/-- MK_DQT (R129). -/
def execMkDqt (lseg : Half) (s : State) : Host.Outcome State Fault Refusal := (withBody lseg dqtBody s).finish

/-- MK_DRI (R126). -/
def execMkDri (lseg : Half) (s : State) : Host.Outcome State Fault Refusal := (withBody lseg driBody s).finish

/-- MK_SOS (R130, R131). -/
def execMkSos (lseg : Half) (s : State) : Host.Outcome State Fault Refusal := (withBody lseg sosBody s).finish

/-- MK_SOF1_REJECT (R132). -/
def execMkSof1Reject (lseg : Half) (s : State) : Host.Outcome State Fault Refusal := (rejectSegment lseg s).finish

/-- MK_SOF2_REJECT (R132). -/
def execMkSof2Reject (lseg : Half) (s : State) : Host.Outcome State Fault Refusal := (rejectSegment lseg s).finish

/-- MK_SOF3_REJECT (R132). -/
def execMkSof3Reject (lseg : Half) (s : State) : Host.Outcome State Fault Refusal := (rejectSegment lseg s).finish

/-- MK_SOF5_REJECT (R132). -/
def execMkSof5Reject (lseg : Half) (s : State) : Host.Outcome State Fault Refusal := (rejectSegment lseg s).finish

/-- MK_SOF6_REJECT (R132). -/
def execMkSof6Reject (lseg : Half) (s : State) : Host.Outcome State Fault Refusal := (rejectSegment lseg s).finish

/-- MK_SOF7_REJECT (R132). -/
def execMkSof7Reject (lseg : Half) (s : State) : Host.Outcome State Fault Refusal := (rejectSegment lseg s).finish

/-- MK_SOF9_REJECT (R132). -/
def execMkSof9Reject (lseg : Half) (s : State) : Host.Outcome State Fault Refusal := (rejectSegment lseg s).finish

/-- MK_SOF10_REJECT (R132). -/
def execMkSof10Reject (lseg : Half) (s : State) : Host.Outcome State Fault Refusal := (rejectSegment lseg s).finish

/-- MK_SOF11_REJECT (R132). -/
def execMkSof11Reject (lseg : Half) (s : State) : Host.Outcome State Fault Refusal := (rejectSegment lseg s).finish

/-- MK_SOF13_REJECT (R132). -/
def execMkSof13Reject (lseg : Half) (s : State) : Host.Outcome State Fault Refusal := (rejectSegment lseg s).finish

/-- MK_SOF14_REJECT (R132). -/
def execMkSof14Reject (lseg : Half) (s : State) : Host.Outcome State Fault Refusal := (rejectSegment lseg s).finish

/-- MK_SOF15_REJECT (R132). -/
def execMkSof15Reject (lseg : Half) (s : State) : Host.Outcome State Fault Refusal := (rejectSegment lseg s).finish

/-- MK_EOI_REJECT (R132). -/
def execMkEoiReject (lseg : Half) (s : State) : Host.Outcome State Fault Refusal := (rejectSegment lseg s).finish

/-- MK_OTHER: the segment is skipped, with no size limit (R133). -/
def execMkOther (_c : Byte) (lseg : Half) (s : State) : Host.Outcome State Fault Refusal :=
  (withSegment lseg (fun len s => (skipBytes len s).bind fun _ s => nextMarker s) s).finish

/-- MK_RSTn read by RESTART: `n` must be the restart count before this restart mod 8; then the padding bits are dropped, the
predictors are 0, `rst` is 1 and the MCU begins (R154, R202). A wrong number raises FMT1 and leaves the bit reader as it is
(R155; assumption log 11). -/
def execMkRstn (n : BitVec 3) (s : State) : Host.Outcome State Fault Refusal :=
  if n = (s.jd.rsc - 1).extractLsb' 0 3 then
    .next (s.setJd (startBlock 0 { s.jd with msk := 0, dcv0 := 0, dcv1 := 0, dcv2 := 0, rst := 1 }))
  else (Res.ends .fmt1 s).finish

end Sys2Proof.Machine
end

