-- ==== Sys2Proof/Machine/Packets.lean ====
section
/-! DEFINITION. The meanings of the received packets (R233 to R242). -/

namespace Sys2Proof.Machine

/-- The captured header is final: its length, its bytes in the other buffer, HDR_VALID (R240). -/
def completeHeader (off size : Nat) (s : State) : State :=
  let n := off + size
  let bytes := (List.range n).map fun a => s.rxByte s.rx.fillIdx a
  let s1 := rxWriteBytes (!s.rx.fillIdx) 0 bytes s
  s1.setRx { s1.rx with hdrLen := BitVec.ofNat 24 n, hdrValid := true }

/-- A frame completes: its length, READY_IDX, OVERRUN if one was ready, FRAME_READY, and one ACK asked for (R241, R242). -/
def completeFrame (off size : Nat) (s : State) : State :=
  let r := { s.rx.setFrameLen s.rx.fillIdx (BitVec.ofNat 24 (off + size)) with
    readyIdx := s.rx.fillIdx
    overrun := s.rx.overrun || s.rx.frameReady
    frameReady := true
    ackPend := if s.rx.ackPend = 255 then 255 else s.rx.ackPend + 1 }
  let s1 := if s.rx.frameReady then s.event .frameOverrun else s
  (s1.setRx r).event .frameReady

/-- A fragment packet: the checks of R233 and R235, the offset `base + SEQ*F` (R234), the payload write (R236), and the
completion on FINAL (R240, R241). -/
def placeFragment (base : Nat) (complete : Nat → Nat → State → State) (p : Packet) (s : State) : State :=
  match p.body with
  | [] => dropDatagram .short s
  | seq :: rest =>
    let size := p.size.toNat
    let off := base + seq.toNat * Config.fragMax
    if Config.fragMax < size then dropDatagram .size s
    else if rest.length < size then dropDatagram .short s
    else if s.params.rxBufSize < off + size then dropDatagram .bounds s
    else
      let s1 := rxWriteBytes s.rx.fillIdx off (rest.take size) s
      if p.final then complete off size s1 else s1

/-- A control packet: the length check, then CTRL_OUT with the datagram unchanged (R84, R237). -/
def passThrough (t : Byte) (p : Packet) (s : State) : State :=
  if p.body.length < p.size.toNat then dropDatagram .short s else s.emit (.ctrlOut (encodePacket t p))

/-- PKT_ACK (R238). -/
def execPktAck (p : Packet) (s : State) : Host.Outcome State Fault Refusal :=
  .next (if p.body.length < p.size.toNat then dropDatagram .short s else txcAck s)

/-- PKT_NAK (R237). -/
def execPktNak (p : Packet) (s : State) : Host.Outcome State Fault Refusal := .next (passThrough 0x01 p s)

/-- PKT_INITIAL_HEADER_DATA: placed from offset 0 on (R233 to R236, R240). -/
def execPktInitialHeaderData (p : Packet) (s : State) : Host.Outcome State Fault Refusal :=
  .next (placeFragment 0 completeHeader p s)

/-- PKT_FRAME_DATA: placed after the captured header (R233 to R236, R241). -/
def execPktFrameData (p : Packet) (s : State) : Host.Outcome State Fault Refusal :=
  .next (placeFragment s.rx.hdrLen.toNat completeFrame p s)

/-- PKT_TELEMETRY (R237). -/
def execPktTelemetry (p : Packet) (s : State) : Host.Outcome State Fault Refusal := .next (passThrough 0x04 p s)

/-- PKT_PING (R237). -/
def execPktPing (p : Packet) (s : State) : Host.Outcome State Fault Refusal := .next (passThrough 0x05 p s)

/-- PKT_SWITCH_CHANNEL (R237). -/
def execPktSwitchChannel (p : Packet) (s : State) : Host.Outcome State Fault Refusal := .next (passThrough 0x06 p s)

/-- PKT_TX_POWER_UPDATE (R237). -/
def execPktTxPowerUpdate (p : Packet) (s : State) : Host.Outcome State Fault Refusal := .next (passThrough 0x07 p s)

/-- PKT_ENABLE_LED (R237). -/
def execPktEnableLed (p : Packet) (s : State) : Host.Outcome State Fault Refusal := .next (passThrough 0x08 p s)

/-- PKT_UNKNOWN: dropped (R239). -/
def execPktUnknown (_type : Byte) (_p : Packet) (s : State) : Host.Outcome State Fault Refusal :=
  .next (dropDatagram .type s)

end Sys2Proof.Machine
end

