-- ==== Sys2Proof/Machine/Dispatch.lean ====
section
/-! DEFINITION. The meaning of each instruction, one arm per constructor. -/

namespace Sys2Proof.Machine

def exec (i : Instr) (s : State) : Host.Outcome State Fault Refusal :=
  match i with
  | .pktAck p => Sys2Proof.Machine.execPktAck p s
  | .pktNak p => Sys2Proof.Machine.execPktNak p s
  | .pktInitialHeaderData p => Sys2Proof.Machine.execPktInitialHeaderData p s
  | .pktFrameData p => Sys2Proof.Machine.execPktFrameData p s
  | .pktTelemetry p => Sys2Proof.Machine.execPktTelemetry p s
  | .pktPing p => Sys2Proof.Machine.execPktPing p s
  | .pktSwitchChannel p => Sys2Proof.Machine.execPktSwitchChannel p s
  | .pktTxPowerUpdate p => Sys2Proof.Machine.execPktTxPowerUpdate p s
  | .pktEnableLed p => Sys2Proof.Machine.execPktEnableLed p s
  | .pktUnknown type p => Sys2Proof.Machine.execPktUnknown type p s
  | .jdNop buf => Sys2Proof.Machine.execJdNop buf s
  | .jdPrepare buf => Sys2Proof.Machine.execJdPrepare buf s
  | .jdDecomp buf => Sys2Proof.Machine.execJdDecomp buf s
  | .jdReserved buf => Sys2Proof.Machine.execJdReserved buf s
  | .rxTake clr => Sys2Proof.Machine.execRxTake clr s
  | .rxClrSticky => Sys2Proof.Machine.execRxClrSticky s
  | .txcCaptureReq => Sys2Proof.Machine.execTxcCaptureReq s
  | .txcFragStart frame => Sys2Proof.Machine.execTxcFragStart frame s
  | .intW1c clear => Sys2Proof.Machine.execIntW1c clear s
  | .mkSoi => Sys2Proof.Machine.execMkSoi s
  | .mkSof0 lseg => Sys2Proof.Machine.execMkSof0 lseg s
  | .mkDht lseg => Sys2Proof.Machine.execMkDht lseg s
  | .mkDqt lseg => Sys2Proof.Machine.execMkDqt lseg s
  | .mkDri lseg => Sys2Proof.Machine.execMkDri lseg s
  | .mkSos lseg => Sys2Proof.Machine.execMkSos lseg s
  | .mkSof1Reject lseg => Sys2Proof.Machine.execMkSof1Reject lseg s
  | .mkSof2Reject lseg => Sys2Proof.Machine.execMkSof2Reject lseg s
  | .mkSof3Reject lseg => Sys2Proof.Machine.execMkSof3Reject lseg s
  | .mkSof5Reject lseg => Sys2Proof.Machine.execMkSof5Reject lseg s
  | .mkSof6Reject lseg => Sys2Proof.Machine.execMkSof6Reject lseg s
  | .mkSof7Reject lseg => Sys2Proof.Machine.execMkSof7Reject lseg s
  | .mkSof9Reject lseg => Sys2Proof.Machine.execMkSof9Reject lseg s
  | .mkSof10Reject lseg => Sys2Proof.Machine.execMkSof10Reject lseg s
  | .mkSof11Reject lseg => Sys2Proof.Machine.execMkSof11Reject lseg s
  | .mkSof13Reject lseg => Sys2Proof.Machine.execMkSof13Reject lseg s
  | .mkSof14Reject lseg => Sys2Proof.Machine.execMkSof14Reject lseg s
  | .mkSof15Reject lseg => Sys2Proof.Machine.execMkSof15Reject lseg s
  | .mkEoiReject lseg => Sys2Proof.Machine.execMkEoiReject lseg s
  | .mkRstn n => Sys2Proof.Machine.execMkRstn n s
  | .mkOther c lseg => Sys2Proof.Machine.execMkOther c lseg s
  | .edStuffedFF => Sys2Proof.Machine.execEdStuffedFF s
  | .edMarkerInData xx => Sys2Proof.Machine.execEdMarkerInData xx s
  | .dcClass0 => Sys2Proof.Machine.execDcClass0 s
  | .dcClass ssss => Sys2Proof.Machine.execDcClass ssss s
  | .acEob => Sys2Proof.Machine.execAcEob s
  | .acZrl => Sys2Proof.Machine.execAcZrl s
  | .acRunSkip rrrr => Sys2Proof.Machine.execAcRunSkip rrrr s
  | .acRunSize rrrr ssss => Sys2Proof.Machine.execAcRunSize rrrr ssss s
  | .acBadClass rrrr ssss => Sys2Proof.Machine.execAcBadClass rrrr ssss s

end Sys2Proof.Machine
end

