-- ==== Sys2Proof/Machine/Registers.lean ====
section
/-! DEFINITION. The register map of the host port (R21 to R45): what a read returns, and the plain writes. -/

namespace Sys2Proof.Machine

/-- What a read of an offset returns; write-only and unmapped offsets and reserved bits read 0 (R43, R45). -/
def regRead (s : State) (off : Nat) : Word :=
  if off = 0x04 then jdStatusWord s.jd
  else if off = 0x08 then s.jd.height ++ s.jd.width
  else if off = 0x0C then s.jd.nrst ++ (0 : BitVec 12) ++ s.jd.msy ++ s.jd.msx
  else if off = 0x10 then (0 : BitVec 26) ++ s.jd.qtid2 ++ s.jd.qtid1 ++ s.jd.qtid0
  else if off = 0x14 then s.jd.posY ++ s.jd.posX
  else if off = 0x18 then s.jd.srcLen.setWidth 32
  else if off = 0x1C then s.jd.srcPos.setWidth 32
  else if off = 0x20 then (s.params.poolSize - s.jd.used) ++ s.jd.used
  else if off = 0x24 then tblValidWord s.jd
  else if off = 0x44 then rxStatusWord s.rx
  else if off = 0x48 then s.rx.hdrLen.setWidth 32
  else if off = 0x4C then s.rx.frameLen0.setWidth 32
  else if off = 0x50 then s.rx.frameLen1.setWidth 32
  else if off = 0x54 then takeWord s.rx
  else if off = 0x58 then s.rx.dropCnt
  else if off = 0x5C then s.rx.ackPend.setWidth 32
  else if off = 0x84 then txcStatusWord s.txc s.txp
  else if off = 0x88 then s.txc.credit.setWidth 32
  else if off = 0x8C then s.txc.wdtCnt
  else if off = 0x90 then s.txc.fragLen.setWidth 32
  else if off = 0xC0 then s.intr.status.setWidth 32
  else if off = 0xC4 then s.intr.enable.setWidth 32
  else 0

/-- A register write that is no command: TXC_FRAG_LEN and INT_ENABLE take their field, every other offset ignores the write
(R40, R42, R43). -/
def regWrite (off : Nat) (w : Word) (s : State) : State :=
  if off = 0x90 then s.setTxc { s.txc with fragLen := w.setWidth 24 }
  else if off = 0xC4 then s.setIntr { s.intr with enable := w.setWidth 8 }
  else s

/-- An access the host port takes: 4 bytes, aligned, inside the 256 bytes (R43, R45). -/
def accessOk (off n : Nat) : Bool := decide (n = 4 ∧ off % 4 = 0 ∧ off < 256)

/-- The host's address of an offset (R74). -/
def hostAddress (off : Nat) : Nat := Config.regBase + off

end Sys2Proof.Machine
end

