-- ==== Sys2Proof/Machine/Transmit.lean ====
section
/-! DEFINITION. The transmit port and the fragmenter's datagrams (R245, R246, R260, R261). -/

namespace Sys2Proof.Machine

/-- `n_k = min(F, S - k*F)`, the payload size of fragment `k` of `S` bytes (R245). -/
def fragSize (total k : Nat) : Nat := min Config.fragMax (total - k * Config.fragMax)

/-- Fragment `k` is the last of `S` bytes (R246). -/
def fragLast (total k : Nat) : Bool := decide (k * Config.fragMax + fragSize total k = total)

/-- The TYPE byte of the fragmenter's packets: INITIAL_HEADER_DATA or FRAME_DATA (R81, R244). -/
def fragTypeByte (frame : Bool) : Byte := if frame then 0x03 else 0x02

/-- The datagram of fragment `k` of `S` bytes, read byte by byte from a source (R246). -/
def fragDatagram (frame : Bool) (total k : Nat) (source : Nat → Byte) : List Byte :=
  hdrPack (fragTypeByte frame) Config.cryptFlag (fragLast total k) (BitVec.ofNat 8 (fragSize total k)) ++
    BitVec.ofNat 8 k :: (List.range (fragSize total k)).map fun a => source (k * Config.fragMax + a)

/-- The ACK datagram (R85). -/
def ackDatagram : List Byte := [0, 0, 0, 0]

/-- A datagram goes to the radio transport (R260). -/
def sendDatagram (d : List Byte) (s : State) : State := (s.setTxp ⟨true, d⟩).emit (.radioTx d)

/-- TXP sends an ACK (R260, R262). -/
def sendAck (s : State) : State :=
  sendDatagram ackDatagram (s.setRx { s.rx with ackPend := s.rx.ackPend - 1 })

/-- TXP sends the fragmenter's next fragment; after the last one FRAG_BUSY falls and FRAG_DONE rises (R246, R260). -/
def sendFragment (s : State) : State :=
  let k := s.txc.fragK.toNat
  let total := s.txc.fragS.toNat
  let t := { s.txc with fragK := s.txc.fragK + 1 }
  let s1 := sendDatagram (fragDatagram s.txc.fragType total k s.txsrcByte) s
  if fragLast total k then (s1.setTxc { t with fragBusy := false }).event .fragDone else s1.setTxc t

/-- TXP can take a step (R260). -/
def txpReady (s : State) : Bool := !s.txp.busy && (decide (s.rx.ackPend ≠ 0) || s.txc.fragBusy)

/-- The TXP send step where it is ready. Which datagram goes first when both wait is a free choice (R260). -/
def txpStep (s : State) : State :=
  if s.rx.ackPend = 0 then sendFragment s
  else if s.txc.fragBusy then
    if Config.txpAckFirst s.draws then sendAck s.draw else sendFragment s.draw
  else sendAck s

/-- `on txdone` (R261). -/
def txDone (s : State) : State :=
  if s.txp.busy then (s.setTxp { s.txp with busy := false }).event .txDone else s

end Sys2Proof.Machine
end

