-- ==== Sys2Proof/Machine/Fetch.lean ====
section
/-! DEFINITION. What moves next: the turn, the environment's input and its decoding, and the steps of JD up to the next
instruction it decodes (R67, R123, R151, R153, R202, R345). -/

namespace Sys2Proof.Machine

/-- What a step has found to do. -/
inductive Fetched where
  /-- Run the decoded instruction on this state, in which its bytes have been read. -/
  | run (i : Instr) (s : State)
  /-- A unit or the environment has moved without an instruction of the opcode table. -/
  | moved (s : State)
  | fault (f : Fault)
  | refused (r : Refusal)
  deriving Repr

/-- A part of a JD command that leads to a `Fetched`; an end of the command is a move (R305). -/
def Res.fetched (x : Res Fetched) : Fetched :=
  match x with
  | .ok f _ => f
  | .ends r s => .moved (endCommand r s)
  | .fault f => .fault f

/-- A part of a JD command that is a step of its own. -/
def Res.moved (x : Res Unit) : Fetched :=
  match x with
  | .ok _ s => .moved s
  | .ends r s => .moved (endCommand r s)
  | .fault f => .fault f

/-- Read `n` source bytes and decode them at a port; bytes that are no instruction there raise FMT1 (R122, R123, R154). -/
def fetchMarker (port : Port) (n : Nat) (s : State) : Fetched :=
  ((readBytes n s).bind fun bs s =>
    match decode port bs with
    | .ok i => .ok (.run i s) s
    | .error _ => .ends .fmt1 s).fetched

/-- FetchData for the HUFFEXT in progress: a data byte goes to the reader, a pair FF xx is decoded (R151). -/
def fetchEntropy (s : State) : Fetched :=
  ((needByte s).bind fun b s =>
    if b = 0xFF then
      (needByte s).bind fun c s =>
        match decode .entropy [b, c] with
        | .ok i => .ok (.run i s) s
        | .error _ => .ends .fmt1 s
    else .ok (.moved (feedReader b s)) s).fetched

/-- The value of the first code word of `n` from index `j` on that equals `v` (R153). -/
def huffMatch (t : HuffTable) (j n : Nat) (v : Half) : Option Byte :=
  ((((t.code.zip t.val).drop j).take n).find? fun cv => cv.1 == v).map Prod.snd

/-- One length class of HUFFEXT on a table: one more bit, then the code words of that length; a match leaves `cur` and `msk`
behind the code and the symbol extracted, and after 16 bits without one FMT1 is raised (R153). -/
def huffBit (t : HuffTable) (found : Byte → JdMode) (s : State) : Res Unit :=
  let h := s.jd.hx
  let v := pushBit h.v h.m h.c
  let m := h.m >>> 1
  let n := (t.bits.getD h.l 0).toNat
  match huffMatch t h.j n v with
  | some b => .ok () (s.setJd { s.jd with cur := h.c, msk := m, mode := found b })
  | none =>
    if 15 ≤ h.l then .ends .fmt1 s
    else .ok () (s.setJd { s.jd with hx := ⟨v, m, h.c, h.l + 1, h.j + n⟩ })

/-- A step of HUFFEXT on `H[id][cls]` of the block: a byte where no bit is left, else one length class (R153). -/
def huffStep (cls : Bool) (found : Byte → JdMode) (s : State) : Fetched :=
  if s.jd.hx.m = 0 then fetchEntropy s
  else match s.jd.huff.get (s.jd.tableId s.jd.blk) cls with
    | some t => (huffBit t found s).moved
    | none => .fault .tableAbsent

/-- The extracted symbol decoded at its port. -/
def fetchSymbol (port : Port) (b : Byte) (s : State) : Fetched :=
  match decode port [b] with
  | .ok i => .run i s
  | .error _ => .refused .dcSymbol

/-- JD can take a step: a command runs and does not hold on the tile port (R210). -/
def jdReady (s : State) : Bool := decide (s.jd.mode ≠ .idle) && decide (s.jd.mode ≠ .tile)

/-- The next step of the JD unit. -/
def jdFetch (s : State) : Fetched :=
  match s.jd.mode with
  | .idle => .moved s
  | .soi => fetchMarker .soi 2 s
  | .marker => fetchMarker .header 4 s
  | .mcu => (mcuStep s).moved
  | .restart => fetchMarker .restart 2 s
  | .huffDc => huffStep false .symbolDc s
  | .huffAc => huffStep true .symbolAc s
  | .symbolDc b => fetchSymbol .dcSymbol b s
  | .symbolAc b => fetchSymbol .acSymbol b s
  | .transform => .moved (transformStep s)
  | .output => .moved (outputStep s)
  | .tile => .moved s

/-- The TXP unit's turn (R260). -/
def txpFetch (s : State) : Fetched := .moved (if txpReady s then txpStep s else s)

/-- Reset, at once on every unit; the environment's side (the inputs to come, TXSRC, what was put out) is not reset (R330,
R331). -/
def hwReset (s : State) : State :=
  { State.resetWith s.params (s.epoch + 1) with
    txsrc := s.txsrc
    draws := s.draws
    inputs := s.inputs
    schedule := s.schedule
    out := s.out }

/-- A received datagram: decoded, or dropped as LONG or SHORT (R231). -/
def radioFetch (d : List Byte) (s : State) : Fetched :=
  match decode .radio d with
  | .ok i => .run i s
  | .error .long => .moved (dropDatagram .long s)
  | .error _ => .moved (dropDatagram .short s)

/-- A host write: a command word is decoded, every other write is plain (R43). -/
def writeFetch (off n : Nat) (w : Word) (s : State) : Fetched :=
  if accessOk off n then
    match decode (.reg off) (leBytes w) with
    | .ok i => .run i s
    | .error _ => .moved (regWrite off w s)
  else .refused .registerAccess

/-- One input of the environment (R345). -/
def inputFetch (i : Input) (s : State) : Fetched :=
  match i with
  | .radio d => radioFetch d s
  | .regWrite off n w => writeFetch off n w s
  | .regRead off n =>
    if accessOk off n then .moved (s.emit (.regValue off (regRead s off))) else .refused .registerAccess
  | .tileAnswer accept => .moved (answerTile accept s)
  | .txdone => .moved (txDone s)
  | .tick => .moved (tick s)
  | .camera a bytes => .moved (cameraWrite a bytes s)
  | .reset => .moved (hwReset s)

/-- The environment's turn: its next input, if it has one. -/
def envFetch (s : State) : Fetched :=
  match s.inputs with
  | [] => .moved s
  | i :: rest => inputFetch i { s with inputs := rest }

/-- One turn. -/
def turnFetch (t : Turn) (s : State) : Fetched :=
  match t with
  | .env => envFetch s
  | .jd => jdFetch s
  | .txp => txpFetch s

/-- Whose move the next step is, and the state with that turn taken off the schedule: the scheduled turn; without one, JD if
it can move, else TXP, else the environment (assumption log 1). -/
def State.turn (s : State) : Turn × State :=
  match s.schedule with
  | t :: rest => (t, { s with schedule := rest })
  | [] => (if jdReady s then .jd else if txpReady s then .txp else .env, s)

/-- What the next step does. -/
def fetch (s : State) : Fetched := turnFetch s.turn.1 s.turn.2

end Sys2Proof.Machine
end

