-- ==== Sys2Proof/Machine/Step.lean ====
section
/-! DEFINITION. One step of the block: what moves next (`fetch`), and the meaning of the instruction it has decoded. -/

namespace Sys2Proof.Machine

/-- One step (R67). A state in which nothing can move steps to itself (R342). -/
def step (s : State) : Host.Outcome State Fault Refusal :=
  match fetch s with
  | .run i s' => exec i s'
  | .moved s' => .next s'
  | .fault f => .fault f
  | .refused r => .refused r

/-- The bytes at the start of the JD source, in buffer 0, with JD about to read them: a buffer of the largest size, LEN the
number of bytes, POS 0, no byte raced. -/
def State.withSource (s : State) (bs : List Byte) (phase : BitVec 2) (mode : JdMode) : State :=
  { s with
    params := { s.params with rxBufSize := 2 ^ 24 }
    rxbuf0 := (bs.zipIdx).foldl (fun m c => m.write c.2 c.1) s.rxbuf0
    raced := []
    schedule := .jd :: s.schedule
    jd := { s.jd with
      busy := true
      phase := phase
      mode := mode
      srcIdx := false
      srcLen := BitVec.ofNat 24 bs.length
      srcPos := 0 } }

/-- `s` with a word of the opcode table stored where the next step fetches its instruction (`tableBytes`): a datagram
delivered to RADIO_RX, a host write of JD_CTRL, or source bytes of JD at the marker loop head, at the SOI check, before a
restart marker whose number is expected, or inside a HUFFEXT that needs a byte (assumption log 12). -/
def State.withFetchWord (s : State) (nbits w : Nat) : State :=
  let bs := (tableBytes nbits w).2
  match (tableBytes nbits w).1 with
  | .radio => { s with inputs := .radio bs :: s.inputs, schedule := .env :: s.schedule }
  | .reg off => { s with inputs := .regWrite off 4 (BitVec.ofNat 32 w) :: s.inputs, schedule := .env :: s.schedule }
  | .soi => s.withSource bs 1 .soi
  | .header => s.withSource bs 1 .marker
  | .restart =>
    { s with jd := { s.jd with rsc := BitVec.ofNat 16 (w % 8 + 1) } }.withSource bs 2 .restart
  | .entropy => { s with jd := { s.jd with hx := ⟨0, 0, 0, 0, 0⟩ } }.withSource bs 2 .huffDc
  | .dcSymbol => s
  | .acSymbol => s

end Sys2Proof.Machine
end

