-- ==== Sys2Proof/Safety.lean ====
section
/-! DEFINITION. The terms the statements use: when the source of JD holds the bytes an instruction reads, the invariants that
every step keeps, and what is a safe state. -/

namespace Sys2Proof.Machine

/-! The source of JD (R25, R150). -/

/-- The next `n` source bytes are inside LEN and the buffer, and RX has not rewritten one of them during the command (R69). -/
def SourceReady (s : State) (n : Nat) : Prop :=
  s.jd.srcPos.toNat + n ≤ s.jd.srcLen.toNat ∧ s.jd.srcLen.toNat ≤ s.params.rxBufSize ∧
    ∀ k < n, s.oldValues (s.jd.srcPos.toNat + k) = []

/-- The next `n` source bytes. -/
def sourceBytes (s : State) (n : Nat) : List Byte :=
  (List.range n).map fun k => s.rxByte s.jd.srcIdx (s.jd.srcPos.toNat + k)

/-- POS moved on by `n` (R150). -/
def State.advance (s : State) (n : Nat) : State :=
  s.setJd { s.jd with srcPos := s.jd.srcPos + BitVec.ofNat 24 n }

/-- `s'` is `s` after some source reads: POS has moved on, at most to LEN, free choices may have been made, and nothing else
has changed (R150, R155). -/
structure Reads (s s' : State) : Prop where
  frame : s' = { s with draws := s'.draws, jd := { s.jd with srcPos := s'.jd.srcPos } }
  low : s.jd.srcPos.toNat ≤ s'.jd.srcPos.toNat
  high : s'.jd.srcPos.toNat ≤ max s.jd.srcPos.toNat s.jd.srcLen.toNat

/-- A part of a JD command that only reads the source: it goes on, or raises INP or FMT1, or meets an address that does not
exist, which takes a LEN above the buffer's size. -/
def Res.ReadsOnly {α : Type} (x : Res α) (s : State) : Prop :=
  match x with
  | .ok _ s' => Reads s s'
  | .ends r s' => (r = .inp ∨ r = .fmt1) ∧ Reads s s'
  | .fault f => f = .rxbufAddress ∧ s.params.rxBufSize < s.jd.srcLen.toNat

/-! Memory. -/

/-- The three byte spaces are in canonical form. -/
def MemInv (s : State) : Prop := s.rxbuf0.wf ∧ s.rxbuf1.wf ∧ s.txsrc.wf

/-! RX. -/

/-- The captured lengths fit in a buffer (R150, R235), and a frame that is ready stands in the buffer being filled (R243). -/
structure RxInv (s : State) : Prop where
  hdrLen : s.rx.hdrLen.toNat ≤ s.params.rxBufSize
  frameLen : ∀ b, (s.rx.frameLen b).toNat ≤ s.params.rxBufSize
  ready : s.rx.frameReady = true → s.rx.readyIdx = s.rx.fillIdx

/-! TXC. -/

/-- The credit is at most CREDIT_MAX, and 0 while a request waits (R264, R265). -/
structure CreditInv (s : State) : Prop where
  legal : s.params.Legal
  credit : s.txc.credit.toNat ≤ Config.creditMax
  waiting : s.txc.captureWait = true → s.txc.credit = 0

/-- The watchdog count stands below the period in force (R266). -/
structure WatchdogInv (s : State) : Prop where
  legal : s.params.Legal
  count : s.txc.wdtCnt.toNat < s.period.toNat

/-- While the fragmenter is busy, its next fragment carries at least one byte (R245). -/
def FragInv (s : State) : Prop :=
  s.txc.fragBusy = true → s.txc.fragK.toNat * Config.fragMax < s.txc.fragS.toNat

/-! JD. -/

/-- 0 or one-hot, as R30 gives `msk`. -/
def ZeroOrOneHot (m : Byte) : Prop := m &&& (m - 1) = 0

/-- PHASE at each place of a command (R22, R120, R200, R209). -/
def JdMode.phase : JdMode → BitVec 2
  | .idle => 0
  | .soi => 1
  | .marker => 1
  | .mcu => 2
  | .restart => 2
  | .huffDc => 2
  | .huffAc => 2
  | .symbolDc _ => 2
  | .symbolAc _ => 2
  | .transform => 2
  | .output => 2
  | .tile => 3

/-- DECOMP runs. -/
def JdMode.decoding (m : JdMode) : Prop := 2 ≤ m.phase.toNat

/-- An MCU has begun. -/
def JdMode.inMcu (m : JdMode) : Prop := m.decoding ∧ m ≠ .mcu

/-- A block of the MCU is being decoded. -/
def JdMode.inBlock (m : JdMode) : Prop := m.inMcu ∧ m ≠ .restart ∧ m ≠ .output ∧ m ≠ .tile

/-- What a PREPARE that ended with OK has established: geometry, sampling and every table the image uses (R125, R130). -/
structure Decodable (j : Jd) : Prop where
  width : j.width ≠ 0
  height : j.height ≠ 0
  sampling : j.nby ≠ 0
  huff : ∀ id cls, (j.huff.get id cls).isSome = true
  quant : ∀ cmp, (j.quant.get (j.qtid cmp)).isSome = true

/-- (MSX, MSY) before a SOF0, in 4:4:4, in 4:2:2 and in 4:2:0 (R23). -/
def Sampling (j : Jd) : Prop :=
  (j.msx = 0 ∧ j.msy = 0) ∨ (j.msx = 1 ∧ j.msy = 1) ∨ (j.msx = 2 ∧ j.msy = 1) ∨ (j.msx = 2 ∧ j.msy = 2)

/-- The invariant of the JD unit: the source is inside its buffer (R150), the status bits agree with where the command stands
(R22), what DECOMP uses is there (R125, R130), and the masks of the bit reader (R30) and of a HUFFEXT in progress (R153) are 0
or one-hot. -/
structure JdInv (s : State) : Prop where
  frameLen : ∀ b, (s.rx.frameLen b).toNat ≤ s.params.rxBufSize
  srcLen : s.jd.srcLen.toNat ≤ s.params.rxBufSize
  srcPos : s.jd.srcPos.toNat ≤ s.jd.srcLen.toNat
  busy : s.jd.busy = true ↔ s.jd.mode ≠ .idle
  phase : s.jd.phase = s.jd.mode.phase
  result : s.jd.result ≠ .fmt2
  used : s.jd.used.toNat ≤ s.params.poolSize.toNat
  sampling : Sampling s.jd
  prepared : s.jd.prepared = true → s.jd.mode = .idle ∧ Decodable s.jd
  decoding : s.jd.mode.decoding → Decodable s.jd
  dcValues : ∀ id t, s.jd.huff.get id false = some t → ∀ v ∈ t.val, v.toNat ≤ 11
  dcSymbol : ∀ b, s.jd.mode = .symbolDc b → b.toNat ≤ 11
  block : s.jd.mode.inBlock → s.jd.blk < s.jd.nby + 2
  coef : (s.jd.mode = .huffAc ∨ ∃ b, s.jd.mode = .symbolAc b) → 1 ≤ s.jd.coefIdx ∧ s.jd.coefIdx < 64
  masks : ZeroOrOneHot s.jd.msk ∧ ZeroOrOneHot s.jd.hx.m
  corner : s.jd.mode.inMcu → s.jd.loopX.toNat < s.jd.width.toNat ∧ s.jd.loopY.toNat < s.jd.height.toNat

/-! The entropy data as a bit string (R94, R152). -/

/-- The data bytes of source bytes in which a 00 follows every FF (R94, R151); `none` where one FF has no 00 after it. -/
def unstuff : List Byte → Option (List Byte)
  | [] => some []
  | [b] => if b = 0xFF then none else some [b]
  | b :: c :: bs =>
    if b = 0xFF then (if c = 0 then (unstuff bs).map (0xFF :: ·) else none) else (unstuff (c :: bs)).map (b :: ·)

/-- The bits of a byte, most significant first (R94). -/
def byteBits (b : Byte) : List Bool := (List.range 8).map fun i => b.getLsbD (7 - i)

/-- The bits of `cur` that `msk` still selects, the next one first (R30). -/
def leftBits (m c : Byte) : List Bool :=
  ((List.range 8).filter fun i => decide (2 ^ (7 - i) ≤ m.toNat)).map fun i => c.getLsbD (7 - i)

/-- The number some bits write, first bit most significant (R152). -/
def bitsVal (l : List Bool) : Nat := l.foldl (fun v b => 2 * v + b.toNat) 0

/-- The bits that the bit reader finds in `cur` and in the next `k` source bytes. -/
def State.bitString (s : State) (k : Nat) : Option (List Bool) :=
  (unstuff (sourceBytes s k)).map fun data => leftBits s.jd.msk s.jd.cur ++ data.flatMap byteBits

/-- The first code word of `l + 1` bits that equals a prefix, by its value (R153). -/
def HuffTable.find (t : HuffTable) (l : Nat) (v : Half) : Option Byte :=
  huffMatch t (codeCount (t.bits.take l)) (t.bits.getD l 0).toNat v

/-! DHT (R90, R127). A table of a segment is its id and class, its 16 counts and its values. -/

/-- The bytes of a table in a DHT segment: class in bit 4 and id in bit 0 of the first byte, then the counts and the values. -/
def dhtBytes (t : (Bool × Bool) × List Byte × List Byte) : List Byte :=
  ((0 : BitVec 3) ++ BitVec.ofBool t.1.2 ++ (0 : BitVec 3) ++ BitVec.ofBool t.1.1 : Byte) :: (t.2.1 ++ t.2.2)

/-- A table that passes the checks of R127: 16 counts, as many values as they say, and DC values of at most 11. -/
def DhtLegal (t : (Bool × Bool) × List Byte × List Byte) : Prop :=
  t.2.1.length = 16 ∧ t.2.2.length = codeCount t.2.1 ∧ (t.1.2 = false → ∀ v ∈ t.2.2, v.toNat ≤ 11)

/-! SOS (R130). -/

/-- The checks of R130 that a component passes: its selector, its Huffman tables and its quantization table. -/
structure ComponentOk (seg : List Byte) (j : Jd) (i : Nat) : Prop where
  selector : seg.getD (2 + 2 * i) 0 = 0x00 ∨ seg.getD (2 + 2 * i) 0 = 0x11
  huff : (j.huff.get (decide (i ≠ 0)) false).isSome = true ∧ (j.huff.get (decide (i ≠ 0)) true).isSome = true
  quant : (j.quant.get (j.qtid i)).isSome = true

/-! Runs. -/

/-- The state after `n` steps that all have a next state. -/
def steps : Nat → State → Option State
  | 0, s => some s
  | n + 1, s =>
    match step s with
    | .next t => steps n t
    | _ => none

/-- The datagrams on RADIO_TX, newest first. -/
def State.radioSent (s : State) : List (List Byte) :=
  s.out.filterMap fun o => match o with
    | .radioTx d => some d
    | _ => none

/-- Bytes rounded up to a multiple of 4, as the table arena counts them (R62). -/
def up4 (n : Nat) : Nat := (n + 3) / 4 * 4

/-- The arena bytes of a Huffman table with these counts (R62). -/
def huffArena (bits : List Byte) : Nat := 16 + up4 (2 * codeCount bits) + up4 (codeCount bits)

/-! Safe runs. -/

/-- A step is safe if it does not fault, and refuses only a register access that R43 leaves out. -/
def SafeStep (s : State) : Prop :=
  (∀ f, step s ≠ .fault f) ∧ ∀ r, step s = .refused r → r = .registerAccess

end Sys2Proof.Machine
end

