-- ==== Sys2Proof/Certificates/Slice0/Obligations.lean ====
section
/-! DEFINITION. The statements for the provers. A statement's docstring names the rules of the spec it formalises. -/

open Sys2Proof Sys2Proof.Machine

/-! Encoding. -/

/-- The encoding of every well-formed instruction decodes, at its port, to that instruction (R80 to R100). -/
def Obligations.DecodeInvertsEncode : Prop :=
  ∀ i : Instr, WellFormed i → decode (portOf i) (encode i) = .ok i

/-- Whatever the decoder reads is well formed and belongs to the port it was read at (R81, R87, R95, R96, R99, R100, R231). -/
def Obligations.DecodedIsWellFormed : Prop :=
  ∀ (p : Port) (bs : List Byte) (i : Instr), decode p bs = .ok i → WellFormed i ∧ portOf i = p

/-- R86: packing, unpacking and the word view of a packet header, the round trip, and equality of headers by words. -/
def Obligations.PacketHeaderRoundTrip : Prop :=
  (∀ (t : Byte) (e f : Bool) (n : Byte),
    hdrPack t e f n = [t, ((BitVec.ofBool f).setWidth 8 <<< 1) ||| (BitVec.ofBool e).setWidth 8, n, 0] ∧
      hdrUnpack t (((BitVec.ofBool f).setWidth 8 <<< 1) ||| (BitVec.ofBool e).setWidth 8) n 0 = (t, e, f, n)) ∧
  (∀ b0 b1 b2 b3 : Byte,
    hdrUnpack b0 b1 b2 b3 = (b0, b1.getLsbD 0, b1.getLsbD 1, b2) ∧
      hdrWord b0 b1 b2 b3 =
        b0.setWidth 32 ||| (b1.setWidth 32 <<< 8) ||| (b2.setWidth 32 <<< 16) ||| (b3.setWidth 32 <<< 24)) ∧
  ∀ b0 b1 b2 b3 c0 c1 c2 c3 : Byte,
    hdrWord b0 b1 b2 b3 = hdrWord c0 c1 c2 c3 ↔ [b0, b1, b2, b3] = [c0, c1, c2, c3]

/-- Words written out from the encoding tables decode to what they stand for: a packet (R80, R81), command words (R99, R100),
markers (R87, R88), an entropy pair (R94) and Huffman symbols (R95, R96). -/
def Obligations.DecodedWords : Prop :=
  decode .radio [0x03, 0x02, 0x01, 0x00, 0x07, 0xAA] = .ok (.pktFrameData ⟨0x02, 0x01, 0x00, [0x07, 0xAA]⟩) ∧
  decode (.reg 0x00) [0x01, 0x01, 0x00, 0x00] = .ok (.jdPrepare true) ∧
  decode (.reg 0x94) [0x03, 0x00, 0x00, 0x00] = .ok (.txcFragStart true) ∧
  decode .header [0xFF, 0xC4, 0x00, 0x4E] = .ok (.mkDht 0x004E) ∧
  decode .restart [0xFF, 0xD5] = .ok (.mkRstn 5) ∧
  decode .entropy [0xFF, 0x00] = .ok .edStuffedFF ∧
  decode .dcSymbol [0x0B] = .ok (.dcClass 11) ∧
  decode .acSymbol [0xE1] = .ok (.acRunSize 14 1)

/-! Steps. -/

/-- A step in the environment's turn runs the datagram or the command word it delivers: the decoded instruction, on the state
with the turn and the input taken off (R43, R230; whose turn it is: assumption log 1). -/
def Obligations.StepRunsDeliveredInstruction : Prop :=
  ∀ (s u : State) (input : Input) (rest : List Input) (i : Instr), s.turn = (.env, u) → u.inputs = input :: rest →
    (∀ d, input = .radio d → decode .radio d = .ok i → step s = exec i { u with inputs := rest }) ∧
    (∀ off w, input = .regWrite off 4 w → accessOk off 4 = true → decode (.reg off) (leBytes w) = .ok i →
      step s = exec i { u with inputs := rest })

/-- A step in JD's turn runs the instruction its source bytes decode to, with POS moved past them, or the symbol it has
extracted (R122, R123, R151, R154, R171, R175; whose turn it is: assumption log 1; that this is one step: assumption log 2). -/
def Obligations.StepRunsSourceInstruction : Prop :=
  ∀ (s u : State) (i : Instr), s.turn = (.jd, u) →
    (u.jd.mode = .soi → SourceReady u 2 → decode .soi (sourceBytes u 2) = .ok i → step s = exec i (u.advance 2)) ∧
    (u.jd.mode = .marker → SourceReady u 4 → decode .header (sourceBytes u 4) = .ok i → step s = exec i (u.advance 4)) ∧
    (u.jd.mode = .restart → SourceReady u 2 → decode .restart (sourceBytes u 2) = .ok i → step s = exec i (u.advance 2)) ∧
    (u.jd.mode = .huffDc ∨ u.jd.mode = .huffAc → u.jd.hx.m = 0 → SourceReady u 2 →
      decode .entropy (sourceBytes u 2) = .ok i → step s = exec i (u.advance 2)) ∧
    (∀ b, u.jd.mode = .symbolDc b → decode .dcSymbol [b] = .ok i → step s = exec i u) ∧
    (∀ b, u.jd.mode = .symbolAc b → decode .acSymbol [b] = .ok i → step s = exec i u)

/-- Source bytes that are no instruction where JD reads them end the command with FMT1, and too few of them with INP; POS
shows the bytes consumed (R122, R123, R154, R155, R302, R303). That a raising RESTART leaves the bit reader (R155 over R154's
order) is assumption log 11, and that it takes FF D0 to FF D7 only (R154's words over its mask) is assumption log 16. -/
def Obligations.SourceBytesRejected : Prop :=
  ∀ (s u : State) (p : Port) (n : Nat), s.turn = (.jd, u) →
    (u.jd.mode = .soi ∧ p = .soi ∧ n = 2) ∨ (u.jd.mode = .marker ∧ p = .header ∧ n = 4) ∨
      (u.jd.mode = .restart ∧ p = .restart ∧ n = 2) →
    (∀ e, SourceReady u n → decode p (sourceBytes u n) = .error e → step s = .next (endCommand .fmt1 (u.advance n))) ∧
    (∀ k < n, SourceReady u k → u.jd.srcPos.toNat + k = u.jd.srcLen.toNat →
      step s = .next (endCommand .inp (u.advance k)))

/-! Received datagrams. -/

/-- R310: what a drop writes, and for each reason the datagrams that are dropped for it (with R231, R233, R235, R237, R238). -/
def Obligations.DatagramsDropped : Prop :=
  (∀ (r : DropReason) (s : State), dropDatagram r s = { s with
    rx := { s.rx with dropCnt := s.rx.dropCnt + 1, bounds := s.rx.bounds || decide (r = .bounds) }
    intr := { s.intr with status := s.intr.status ||| 0x08 } }) ∧
  ∀ (s u : State) (d : List Byte) (rest : List Input), s.turn = (.env, u) → u.inputs = .radio d :: rest →
    let v := { u with inputs := rest }
    (250 < d.length → step s = .next (dropDatagram .long v)) ∧
    (d.length < 4 → step s = .next (dropDatagram .short v)) ∧
    ∀ (t f z w : Byte) (body : List Byte), d = t :: f :: z :: w :: body → d.length ≤ 250 →
      (t = 0x02 ∨ t = 0x03 →
        (d.length < 5 → step s = .next (dropDatagram .short v)) ∧
        (5 ≤ d.length → 245 < z.toNat → step s = .next (dropDatagram .size v)) ∧
        (5 ≤ d.length → z.toNat ≤ 245 → d.length < 5 + z.toNat → step s = .next (dropDatagram .short v)) ∧
        (∀ seq payload, body = seq :: payload → z.toNat ≤ 245 → 5 + z.toNat ≤ d.length →
          v.params.rxBufSize < (if t = 0x02 then 0 else v.rx.hdrLen.toNat) + seq.toNat * 245 + z.toNat →
          step s = .next (dropDatagram .bounds v))) ∧
      (t.toNat ≤ 8 → t ≠ 0x02 → t ≠ 0x03 → d.length < 4 + z.toNat → step s = .next (dropDatagram .short v)) ∧
      (9 ≤ t.toNat → step s = .next (dropDatagram .type v))

/-- NAK, TELEMETRY, PING, SWITCH_CHANNEL, TX_POWER_UPDATE and ENABLE_LED go out unchanged on CTRL_OUT, and an unknown type is
dropped (R84, R237, R239). -/
def Obligations.ControlPacketsPassThrough : Prop :=
  ∀ (p : Packet) (s : State),
    (p.size.toNat ≤ p.body.length →
      let sent := fun t : Byte => ({ s with out := .ctrlOut (t :: p.flags :: p.size :: p.rsv :: p.body) :: s.out } : State)
      exec (.pktNak p) s = .next (sent 0x01) ∧ exec (.pktTelemetry p) s = .next (sent 0x04) ∧
      exec (.pktPing p) s = .next (sent 0x05) ∧ exec (.pktSwitchChannel p) s = .next (sent 0x06) ∧
      exec (.pktTxPowerUpdate p) s = .next (sent 0x07) ∧ exec (.pktEnableLed p) s = .next (sent 0x08)) ∧
    ∀ t, exec (.pktUnknown t p) s = .next { s with
      rx := { s.rx with dropCnt := s.rx.dropCnt + 1 }
      intr := { s.intr with status := s.intr.status ||| 0x08 } }

/-- R263 and R265: an ACK clears the watchdog count, sets FIRST_ACK and releases a credit, which a waiting request takes at
once; the credit stays at most 5 (with R238). -/
def Obligations.AckReleasesCredit : Prop :=
  ∀ (p : Packet) (s : State), p.size.toNat ≤ p.body.length →
    let c := min (s.txc.credit.toNat + 1) 5
    (s.txc.captureWait = false → exec (.pktAck p) s = .next { s with
      txc := { s.txc with wdtCnt := 0, firstAck := true, credit := BitVec.ofNat 3 c } }) ∧
    (s.txc.captureWait = true → exec (.pktAck p) s = .next { s with
      txc := { s.txc with wdtCnt := 0, firstAck := true, credit := BitVec.ofNat 3 (c - 1), captureWait := false }
      intr := { s.intr with status := s.intr.status ||| 0x40 } })

/-- A fragment that is not final writes its payload at `base + SEQ*245` of the buffer being filled, and no other byte; base is 0
for a header fragment and the captured header length for a frame fragment (R233 to R236). What happens to `raced`, the model's
record for R69, is the model's choice (assumption log 5). -/
def Obligations.FragmentPlaced : Prop :=
  ∀ (i : Instr) (base : Nat) (p : Packet) (s : State) (seq : Byte) (payload : List Byte), MemInv s →
    (i = .pktInitialHeaderData p ∧ base = 0) ∨ (i = .pktFrameData p ∧ base = s.rx.hdrLen.toNat) →
    p.body = seq :: payload → p.size.toNat ≤ 245 → p.size.toNat ≤ payload.length →
    base + seq.toNat * 245 + p.size.toNat ≤ s.params.rxBufSize → p.final = false →
    ∃ t, exec i s = .next t ∧
      (∀ (b : Bool) (a : Nat), t.rxByte b a =
        if b = s.rx.fillIdx ∧ base + seq.toNat * 245 ≤ a ∧ a < base + seq.toNat * 245 + p.size.toNat then
          payload.getD (a - (base + seq.toNat * 245)) 0
        else s.rxByte b a) ∧
      t = { s with rxbuf0 := t.rxbuf0, rxbuf1 := t.rxbuf1, raced := t.raced } ∧
      (s.jd.busy = false → t.raced = s.raced)

/-- R240: a final header fragment writes its payload, sets hdr_len and HDR_VALID, and copies the first hdr_len bytes to the
other buffer; no other byte changes (with R233 to R236). What happens to `raced` is the model's choice (assumption log 5). -/
def Obligations.HeaderCompletes : Prop :=
  ∀ (p : Packet) (s : State) (seq : Byte) (payload : List Byte), MemInv s →
    p.body = seq :: payload → p.size.toNat ≤ 245 → p.size.toNat ≤ payload.length →
    seq.toNat * 245 + p.size.toNat ≤ s.params.rxBufSize → p.final = true →
    ∃ t, exec (.pktInitialHeaderData p) s = .next t ∧
      (∀ a, t.rxByte s.rx.fillIdx a =
        if seq.toNat * 245 ≤ a ∧ a < seq.toNat * 245 + p.size.toNat then payload.getD (a - seq.toNat * 245) 0
        else s.rxByte s.rx.fillIdx a) ∧
      (∀ a, t.rxByte (!s.rx.fillIdx) a =
        if a < seq.toNat * 245 + p.size.toNat then t.rxByte s.rx.fillIdx a else s.rxByte (!s.rx.fillIdx) a) ∧
      t = { s with
        rx := { s.rx with hdrLen := BitVec.ofNat 24 (seq.toNat * 245 + p.size.toNat), hdrValid := true }
        rxbuf0 := t.rxbuf0, rxbuf1 := t.rxbuf1, raced := t.raced } ∧
      (s.jd.busy = false → t.raced = s.raced)

/-- R241 and R242: a final frame fragment writes its payload, records the frame, raises FRAME_READY (and FRAME_OVERRUN where a
frame was ready), and asks for one ACK, up to 255 (with R233 to R236). `raced`, the model's record for R69, is left open. -/
def Obligations.FrameCompletes : Prop :=
  ∀ (p : Packet) (s : State) (seq : Byte) (payload : List Byte), MemInv s →
    p.body = seq :: payload → p.size.toNat ≤ 245 → p.size.toNat ≤ payload.length →
    s.rx.hdrLen.toNat + seq.toNat * 245 + p.size.toNat ≤ s.params.rxBufSize → p.final = true →
    let off := s.rx.hdrLen.toNat + seq.toNat * 245
    let len : BitVec 24 := BitVec.ofNat 24 (off + p.size.toNat)
    ∃ t, exec (.pktFrameData p) s = .next t ∧
      (∀ (b : Bool) (a : Nat), t.rxByte b a =
        if b = s.rx.fillIdx ∧ off ≤ a ∧ a < off + p.size.toNat then payload.getD (a - off) 0 else s.rxByte b a) ∧
      t = { s with
        rx := { s.rx with
          frameLen0 := if s.rx.fillIdx then s.rx.frameLen0 else len
          frameLen1 := if s.rx.fillIdx then len else s.rx.frameLen1
          readyIdx := s.rx.fillIdx
          overrun := s.rx.overrun || s.rx.frameReady
          frameReady := true
          ackPend := if s.rx.ackPend = 255 then 255 else s.rx.ackPend + 1 }
        intr := { s.intr with status := s.intr.status ||| (if s.rx.frameReady then 0x04 else 0x00) ||| 0x02 }
        rxbuf0 := t.rxbuf0, rxbuf1 := t.rxbuf1, raced := t.raced }

/-! Command words. -/

/-- A NOP has no effect; the reserved command, and PREPARE or DECOMP while BUSY is 1, set CMD_IGNORED and nothing else; a
fragmenter start while FRAG_BUSY is 1 does nothing (R21, R40, R308, R337). -/
def Obligations.CommandsNotAccepted : Prop :=
  ∀ (b : Bool) (s : State),
    exec (.jdNop b) s = .next s ∧
    exec (.jdReserved b) s = .next { s with jd := { s.jd with cmdIgnored := true } } ∧
    (s.jd.busy = true →
      exec (.jdPrepare b) s = .next { s with jd := { s.jd with cmdIgnored := true } } ∧
      exec (.jdDecomp b) s = .next { s with jd := { s.jd with cmdIgnored := true } }) ∧
    (s.txc.fragBusy = true → exec (.txcFragStart b) s = .next s)

/-- R121 and R201: what an accepted PREPARE initialises, and what an accepted DECOMP initialises where PREPARED is 1; where it
is 0, DECOMP ends with PAR (with R21, R25, R120, R200, R202). That all of it happens in the step of the host's write is the
model's choice (assumption log 2), and that no old byte stays readable from here on (`raced`) is its form of R69 (assumption
log 5). -/
def Obligations.DecoderCommandsStart : Prop :=
  ∀ (b : Bool) (s : State), s.jd.busy = false →
    exec (.jdPrepare b) s = .next { s with
      raced := []
      jd := { s.jd with
        busy := true, done := false, cmdIgnored := false, phase := 1, mode := .soi
        srcIdx := b, srcLen := if b then s.rx.frameLen1 else s.rx.frameLen0, srcPos := 0
        huff := ⟨none, none, none, none⟩, quant := ⟨none, none, none, none⟩, used := 0
        width := 0, height := 0, msx := 0, msy := 0, nrst := 0, qtid0 := 0, qtid1 := 0, qtid2 := 0
        prepared := false, msk := 0 } } ∧
    (s.jd.prepared = true → exec (.jdDecomp b) s = .next { s with
      raced := []
      jd := { s.jd with
        busy := true, done := false, cmdIgnored := false, phase := 2, mode := .mcu, prepared := false
        dcv0 := 0, dcv1 := 0, dcv2 := 0, rst := 0, rsc := 0, posX := 0, posY := 0, loopX := 0, loopY := 0 } }) ∧
    (s.jd.prepared = false → exec (.jdDecomp b) s = .next (endCommand .par { s with
      raced := []
      jd := { s.jd with busy := true, done := false, cmdIgnored := false } }))

/-- R35, with TAKE as R243 gives it: TAKE hands over a ready frame and rotates the filling, CLR_STICKY clears OVERRUN and
BOUNDS, both in that order, and a write with neither bit has no effect. -/
def Obligations.TakeAndClearSticky : Prop :=
  ∀ s : State,
    let taken : State := if s.rx.frameReady then { s with rx := { s.rx with
        takeIdx := s.rx.readyIdx, takeValid := true
        takeLen := if s.rx.readyIdx then s.rx.frameLen1 else s.rx.frameLen0
        fillIdx := !s.rx.fillIdx, frameReady := false } }
      else { s with rx := { s.rx with takeIdx := false, takeValid := false, takeLen := 0 } }
    let cleared := fun u : State => ({ u with rx := { u.rx with overrun := false, bounds := false } } : State)
    exec (.rxTake false) s = .next taken ∧ exec (.rxTake true) s = .next (cleared taken) ∧
    exec .rxClrSticky s = .next (cleared s) ∧
    ∀ w : Word, decodeRegister 0x40 w =
      (if w.getLsbD 0 then some (.rxTake (w.getLsbD 1)) else if w.getLsbD 1 then some .rxClrSticky else none) ∧
      regWrite 0x40 w s = s

/-- R264: a capture request is ignored while one waits, granted where there is a credit, and waits else. R244's start: with a
length of 0 the fragmenter is done at once, else it is busy from fragment 0 on. -/
def Obligations.TransmitterCommands : Prop :=
  ∀ s : State,
    (s.txc.captureWait = true → exec .txcCaptureReq s = .next s) ∧
    (s.txc.captureWait = false → s.txc.credit ≠ 0 → exec .txcCaptureReq s = .next { s with
      txc := { s.txc with credit := s.txc.credit - 1 }
      intr := { s.intr with status := s.intr.status ||| 0x40 } }) ∧
    (s.txc.captureWait = false → s.txc.credit = 0 → exec .txcCaptureReq s = .next { s with
      txc := { s.txc with captureWait := true } }) ∧
    ∀ frame : Bool, s.txc.fragBusy = false →
      (s.txc.fragLen = 0 → exec (.txcFragStart frame) s = .next { s with
        txc := { s.txc with fragS := 0, fragK := 0, fragType := frame }
        intr := { s.intr with status := s.intr.status ||| 0x80 } }) ∧
      (s.txc.fragLen ≠ 0 → exec (.txcFragStart frame) s = .next { s with
        txc := { s.txc with fragS := s.txc.fragLen, fragK := 0, fragType := frame, fragBusy := true } })

/-- R42 and R313: a write of INT_STATUS clears the bits written 1, an event sets its own bit, in one step the event wins, and
irq is 1 exactly while an enabled bit is set. -/
def Obligations.InterruptBits : Prop :=
  (∀ (c : Byte) (s : State), exec (.intW1c c) s = .next { s with intr := { s.intr with status := s.intr.status &&& ~~~c } }) ∧
  (∀ s : State,
    (s.event .jdDone).intr = { s.intr with status := s.intr.status ||| 0x01 } ∧
    (s.event .frameReady).intr = { s.intr with status := s.intr.status ||| 0x02 } ∧
    (s.event .frameOverrun).intr = { s.intr with status := s.intr.status ||| 0x04 } ∧
    (s.event .rxDrop).intr = { s.intr with status := s.intr.status ||| 0x08 } ∧
    (s.event .wdtFire).intr = { s.intr with status := s.intr.status ||| 0x10 } ∧
    (s.event .txDone).intr = { s.intr with status := s.intr.status ||| 0x20 } ∧
    (s.event .captureGo).intr = { s.intr with status := s.intr.status ||| 0x40 } ∧
    (s.event .fragDone).intr = { s.intr with status := s.intr.status ||| 0x80 }) ∧
  (∀ (status clear set : Byte) (b : Nat), (intUpdate status clear set).getLsbD b =
    (set.getLsbD b || (status.getLsbD b && !clear.getLsbD b))) ∧
  ∀ i : Intr, irq i = true ↔ ∃ b < 8, i.status.getLsbD b = true ∧ i.enable.getLsbD b = true

/-! Markers. A marker's meaning begins when JD has read its bytes, and Lseg with them. -/

/-- SOI as the first two bytes leads to the marker loop (R122), and the thirteen rejected markers end PREPARE with FMT3 at once,
POS behind Lseg (R132). -/
def Obligations.SoiAndRejectedMarkers : Prop :=
  ∀ (lseg : Half) (s : State),
    exec .mkSoi s = .next { s with jd := { s.jd with mode := .marker } } ∧
    (2 < lseg.toNat → ∀ i ∈ [Instr.mkSof1Reject lseg, .mkSof2Reject lseg, .mkSof3Reject lseg, .mkSof5Reject lseg,
        .mkSof6Reject lseg, .mkSof7Reject lseg, .mkSof9Reject lseg, .mkSof10Reject lseg, .mkSof11Reject lseg,
        .mkSof13Reject lseg, .mkSof14Reject lseg, .mkSof15Reject lseg, .mkEoiReject lseg],
      exec i s = .next (endCommand .fmt3 s))

/-- Lseg of 2 or less ends PREPARE with FMT1 at every marker of the header (R123); a loaded segment of more than 512 bytes ends
it with MEM2 before a byte is read (R124); a segment that the source does not hold whole ends it with INP, POS at LEN (R124,
R133). -/
def Obligations.SegmentChecks : Prop :=
  ∀ (lseg : Half) (c : Byte) (s : State),
    let loaded := [Instr.mkSof0 lseg, .mkDht lseg, .mkDqt lseg, .mkDri lseg, .mkSos lseg]
    (lseg.toNat ≤ 2 → ∀ i ∈ loaded ++ [.mkSof1Reject lseg, .mkSof2Reject lseg, .mkSof3Reject lseg, .mkSof5Reject lseg,
        .mkSof6Reject lseg, .mkSof7Reject lseg, .mkSof9Reject lseg, .mkSof10Reject lseg, .mkSof11Reject lseg,
        .mkSof13Reject lseg, .mkSof14Reject lseg, .mkSof15Reject lseg, .mkEoiReject lseg, .mkOther c lseg],
      exec i s = .next (endCommand .fmt1 s)) ∧
    (514 < lseg.toNat → ∀ i ∈ loaded, exec i s = .next (endCommand .mem2 s)) ∧
    ∀ k, SourceReady s k → s.jd.srcPos.toNat + k = s.jd.srcLen.toNat → k + 2 < lseg.toNat →
      exec (.mkOther c lseg) s = .next (endCommand .inp (s.advance k)) ∧
      (lseg.toNat ≤ 514 → ∀ i ∈ loaded, exec i s = .next (endCommand .inp (s.advance k)))

/-- R125: SOF0 on a loaded segment: the checks in their order, each field written before the next check. -/
def Obligations.Sof0Segment : Prop :=
  ∀ (lseg : Half) (s : State) (len : Nat), lseg.toNat = len + 2 → 0 < len → len ≤ 512 → SourceReady s len →
    let seg := fun i => (sourceBytes s len).getD i 0
    let s1 := s.advance len
    let s2 : State := { s1 with jd := { s1.jd with height := seg 1 ++ seg 2, width := seg 3 ++ seg 4 } }
    let s3 : State := { s2 with jd := { s2.jd with
      msx := BitVec.ofNat 2 ((seg 7).toNat / 16), msy := BitVec.ofNat 2 ((seg 7).toNat % 16) } }
    let s4 : State := { s3 with jd := { s3.jd with qtid0 := BitVec.ofNat 2 (seg 8).toNat } }
    let s5 : State := { s4 with jd := { s4.jd with qtid1 := BitVec.ofNat 2 (seg 11).toNat } }
    let s6 : State := { s5 with jd := { s5.jd with qtid2 := BitVec.ofNat 2 (seg 14).toNat, mode := .marker } }
    (len < 15 → exec (.mkSof0 lseg) s = .next (endCommand .fmt1 s1)) ∧
    (15 ≤ len →
      (seg 5 ≠ 3 → exec (.mkSof0 lseg) s = .next (endCommand .fmt3 s2)) ∧
      (seg 5 = 3 →
        (¬ (seg 7 = 0x11 ∨ seg 7 = 0x21 ∨ seg 7 = 0x22) → exec (.mkSof0 lseg) s = .next (endCommand .fmt3 s2)) ∧
        (seg 7 = 0x11 ∨ seg 7 = 0x21 ∨ seg 7 = 0x22 →
          (3 < (seg 8).toNat → exec (.mkSof0 lseg) s = .next (endCommand .fmt3 s3)) ∧
          ((seg 8).toNat ≤ 3 →
            (seg 10 ≠ 0x11 ∨ 3 < (seg 11).toNat → exec (.mkSof0 lseg) s = .next (endCommand .fmt3 s4)) ∧
            (seg 10 = 0x11 → (seg 11).toNat ≤ 3 →
              (seg 13 ≠ 0x11 ∨ 3 < (seg 14).toNat → exec (.mkSof0 lseg) s = .next (endCommand .fmt3 s5)) ∧
              (seg 13 = 0x11 → (seg 14).toNat ≤ 3 → exec (.mkSof0 lseg) s = .next s6))))))

/-- R126 and R133: DRI takes the restart interval from its first two bytes, or raises FMT1 where there is one byte; every other
segment is skipped whole, whatever its length. -/
def Obligations.DriAndSkippedSegments : Prop :=
  ∀ (lseg : Half) (c : Byte) (s : State) (len : Nat), lseg.toNat = len + 2 → 0 < len → SourceReady s len →
    let s1 := s.advance len
    exec (.mkOther c lseg) s = .next { s1 with jd := { s1.jd with mode := .marker } } ∧
    (len = 1 → exec (.mkDri lseg) s = .next (endCommand .fmt1 s1)) ∧
    (2 ≤ len → len ≤ 512 → exec (.mkDri lseg) s = .next { s1 with jd := { s1.jd with
      nrst := (sourceBytes s len).getD 0 0 ++ (sourceBytes s len).getD 1 0, mode := .marker } })

/-- R129 on a segment of whole tables that the arena can hold: each table stands in its place, the last one of an id wins, each
takes 256 arena bytes, and the k-th value of a table times IPSF stands at ZIG[k]. -/
def Obligations.DqtTables : Prop :=
  (∀ (lseg : Half) (s : State) (len : Nat) (ts : List (BitVec 2 × List Byte)),
    lseg.toNat = len + 2 → 0 < len → len ≤ 512 → SourceReady s len →
    sourceBytes s len = ts.flatMap (fun t => t.1.setWidth 8 :: t.2) → (∀ t ∈ ts, t.2.length = 64) →
    s.jd.used.toNat + 256 * ts.length ≤ s.params.poolSize.toNat →
    exec (.mkDqt lseg) s = .next { s.advance len with jd := { (s.advance len).jd with
      used := BitVec.ofNat 16 (s.jd.used.toNat + 256 * ts.length)
      quant := ts.foldl (fun q t => q.set t.1 (quantTable t.2)) s.jd.quant
      mode := .marker } }) ∧
  ∀ (vals : List Byte) (k : Fin 64),
    (quantTable vals).toList.getD (zigAt k.val) 0 = (vals.getD k.val 0).setWidth 32 * ipsfAt (zigAt k.val)

/-- R127 on a segment of whole legal tables that the arena can hold: each table stands in its place with its canonical codes,
the last one of a class and id wins (R128), and each takes 16, 2·np and np arena bytes, each rounded up to 4 (R62). -/
def Obligations.DhtTables : Prop :=
  ∀ (lseg : Half) (s : State) (len : Nat) (ts : List ((Bool × Bool) × List Byte × List Byte)),
    lseg.toNat = len + 2 → 0 < len → len ≤ 512 → SourceReady s len →
    sourceBytes s len = ts.flatMap dhtBytes → (∀ t ∈ ts, DhtLegal t) →
    s.jd.used.toNat + (ts.map fun t => huffArena t.2.1).sum ≤ s.params.poolSize.toNat →
    exec (.mkDht lseg) s = .next { s.advance len with jd := { (s.advance len).jd with
      used := BitVec.ofNat 16 (s.jd.used.toNat + (ts.map fun t => huffArena t.2.1).sum)
      huff := ts.foldl (fun h t => h.set t.1.1 t.1.2 ⟨t.2.1, canonicalCodes t.2.1, t.2.2⟩) s.jd.huff
      mode := .marker } }

/-- A table of a DHT or DQT segment that fails a check ends PREPARE, whatever legal tables stand before it in the segment: FMT1
for too few bytes, a bad class, id or precision, or a DC value above 11, MEM1 where the arena is exhausted; the checks and the
three allocations stand in the order of R127 and R129. The tables before it stand in their places, and they and what the failing
table has allocated stay counted (R304, R306). -/
def Obligations.TableErrors : Prop :=
  ∀ (lseg : Half) (s : State) (len : Nat), lseg.toNat = len + 2 → 0 < len → len ≤ 512 → SourceReady s len →
    let s1 := s.advance len
    (∀ (ts : List ((Bool × Bool) × List Byte × List Byte)) (seg : List Byte),
      sourceBytes s len = ts.flatMap dhtBytes ++ seg → seg ≠ [] → (∀ t ∈ ts, DhtLegal t) →
      let used := s.jd.used.toNat + (ts.map fun t => huffArena t.2.1).sum
      used ≤ s.params.poolSize.toNat →
      let free := s.params.poolSize.toNat - used
      let d := seg.getD 0 0
      let np := codeCount ((seg.drop 1).take 16)
      let ended := fun (r : ResultCode) (n : Nat) => exec (.mkDht lseg) s = .next (endCommand r { s1 with jd := { s1.jd with
        used := BitVec.ofNat 16 (used + n)
        huff := ts.foldl (fun h t => h.set t.1.1 t.1.2 ⟨t.2.1, canonicalCodes t.2.1, t.2.2⟩) s.jd.huff } })
      (seg.length < 17 ∨ d &&& 0xEE ≠ 0 → ended .fmt1 0) ∧
      (17 ≤ seg.length → d &&& 0xEE = 0 →
        (free < 16 → ended .mem1 0) ∧
        (16 ≤ free → free < 16 + up4 (2 * np) → ended .mem1 16) ∧
        (16 + up4 (2 * np) ≤ free →
          (seg.length - 17 < np → ended .fmt1 (16 + up4 (2 * np))) ∧
          (np ≤ seg.length - 17 → free < 16 + up4 (2 * np) + up4 np → ended .mem1 (16 + up4 (2 * np))) ∧
          (np ≤ seg.length - 17 → 16 + up4 (2 * np) + up4 np ≤ free → d.getLsbD 4 = false →
            (∃ v ∈ (seg.drop 17).take np, 11 < v.toNat) → ended .fmt1 (16 + up4 (2 * np) + up4 np))))) ∧
    ∀ (ts : List (BitVec 2 × List Byte)) (seg : List Byte),
      sourceBytes s len = ts.flatMap (fun t => t.1.setWidth 8 :: t.2) ++ seg → seg ≠ [] → (∀ t ∈ ts, t.2.length = 64) →
      let used := s.jd.used.toNat + 256 * ts.length
      used ≤ s.params.poolSize.toNat →
      let d := seg.getD 0 0
      let ended := fun r : ResultCode => exec (.mkDqt lseg) s = .next (endCommand r { s1 with jd := { s1.jd with
        used := BitVec.ofNat 16 used
        quant := ts.foldl (fun q t => q.set t.1 (quantTable t.2)) s.jd.quant } })
      (seg.length < 65 ∨ d &&& 0xF0 ≠ 0 ∨ 3 < (d &&& 0x0F).toNat → ended .fmt1) ∧
      (65 ≤ seg.length → d &&& 0xF0 = 0 → (d &&& 0x0F).toNat ≤ 3 → s.params.poolSize.toNat - used < 256 → ended .mem1)

/-- R97: a table has one code word per value; the words of one length are consecutive from a first one on, and the first one of
the next length is twice what comes after the last, all modulo 2^16. -/
def Obligations.CanonicalCodes : Prop :=
  ∀ bits : List Byte,
    (canonicalCodes bits).length = codeCount bits ∧
    ∃ first : Nat → Nat, first 0 = 0 ∧
      (∀ l, first (l + 1) = 2 * (first l + (bits.getD l 0).toNat)) ∧
      ∀ l < bits.length, ∀ k < (bits.getD l 0).toNat,
        (canonicalCodes bits)[codeCount (bits.take l) + k]? = some (BitVec.ofNat 16 (first l + k))

/-- R130 and R131: the checks of SOS in their order, and where all pass, PREPARE ends with OK and an empty bit reader. -/
def Obligations.SosChecks : Prop :=
  ∀ (lseg : Half) (s : State) (len : Nat), lseg.toNat = len + 2 → 0 < len → len ≤ 512 → SourceReady s len →
    let seg := sourceBytes s len
    let s1 := s.advance len
    let ok := ComponentOk seg s.jd
    (s.jd.width = 0 ∨ s.jd.height = 0 → exec (.mkSos lseg) s = .next (endCommand .fmt1 s1)) ∧
    (s.jd.width ≠ 0 → s.jd.height ≠ 0 →
      (len < 7 → exec (.mkSos lseg) s = .next (endCommand .fmt1 s1)) ∧
      (7 ≤ len → seg.getD 0 0 ≠ 3 → exec (.mkSos lseg) s = .next (endCommand .fmt3 s1)) ∧
      (7 ≤ len → seg.getD 0 0 = 3 →
        (∀ i < 3, (∀ k < i, ok k) →
          (seg.getD (2 + 2 * i) 0 ≠ 0x00 → seg.getD (2 + 2 * i) 0 ≠ 0x11 →
            exec (.mkSos lseg) s = .next (endCommand .fmt3 s1)) ∧
          (seg.getD (2 + 2 * i) 0 = 0x00 ∨ seg.getD (2 + 2 * i) 0 = 0x11 → ¬ ok i →
            exec (.mkSos lseg) s = .next (endCommand .fmt1 s1))) ∧
        (ok 0 → ok 1 → ok 2 →
          (s.jd.msx.toNat * s.jd.msy.toNat = 0 → exec (.mkSos lseg) s = .next (endCommand .fmt1 s1)) ∧
          (s.jd.msx.toNat * s.jd.msy.toNat ≠ 0 →
            exec (.mkSos lseg) s = .next (endCommand .ok { s1 with jd := { s1.jd with msk := 0 } })))))

/-- R154, with R155 and R202: the expected restart marker empties the bit reader, clears the predictors and begins the MCU with
`rst` 1; another one ends DECOMP with FMT1 and leaves the bit reader (R155 over R154's order: assumption log 11) and the
predictors. RESTART's marker number is the restart count before this restart, modulo 8. -/
def Obligations.RestartMarker : Prop :=
  ∀ (n : BitVec 3) (s : State),
    (n.toNat = (s.jd.rsc - 1).toNat % 8 → exec (.mkRstn n) s = .next { s with jd := { s.jd with
      msk := 0, dcv0 := 0, dcv1 := 0, dcv2 := 0, rst := 1, blk := 0, mode := .huffDc, hx := ⟨0, 0, s.jd.cur, 0, 0⟩ } }) ∧
    (n.toNat ≠ (s.jd.rsc - 1).toNat % 8 → exec (.mkRstn n) s = .next (endCommand .fmt1 s))

/-! Entropy data. -/

/-- FetchData inside HUFFEXT. Where no bit is left, a byte that is not FF is the data byte, and the end of the source gives INP,
also behind an FF; the pair FF 00 gives the data byte FF to the HUFFEXT in progress, and FF xx ends DECOMP with FMT1 (R151,
R153, R155, R156). -/
def Obligations.EntropyBytes : Prop :=
  (∀ s u : State, s.turn = (.jd, u) → u.jd.mode = .huffDc ∨ u.jd.mode = .huffAc → u.jd.hx.m = 0 →
    (SourceReady u 1 → sourceBytes u 1 ≠ [0xFF] →
      step s = .next { u with jd := { u.jd with
        srcPos := u.jd.srcPos + 1
        hx := { u.jd.hx with c := u.rxByte u.jd.srcIdx u.jd.srcPos.toNat, m := 0x80 } } }) ∧
    (u.jd.srcPos = u.jd.srcLen → step s = .next (endCommand .inp u)) ∧
    (SourceReady u 1 → sourceBytes u 1 = [0xFF] → u.jd.srcPos.toNat + 1 = u.jd.srcLen.toNat →
      step s = .next (endCommand .inp (u.advance 1)))) ∧
  ∀ (xx : Byte) (s : State),
    exec .edStuffedFF s = .next { s with jd := { s.jd with hx := { s.jd.hx with c := 0xFF, m := 0x80 } } } ∧
    exec (.edMarkerInData xx) s = .next (endCommand .fmt1 s)

/-- R152, over the bit string of the entropy data (R94): BITEXT gives the next `n` bits, first bit most significant, and leaves
the reader at the bit after them; nothing but `cur`, `msk` and POS changes. Where fewer bits are left it raises INP at the end of
the source, also behind an FF, and FMT1 at a pair FF xx (R151, R156). Then only POS has moved, past every byte read, and `cur`,
`msk`, the predictors and `tmp` stand as they were when the symbol's meaning ends DECOMP (R155); the AC loop's own index has moved
over its run. -/
def Obligations.BitextTakesNextBits : Prop :=
  (∀ (s : State) (n k : Nat) (l : List Bool), ZeroOrOneHot s.jd.msk → SourceReady s k → s.bitString k = some l →
    n ≤ l.length → n ≤ 16 →
    ∃ (j : Nat) (m c : Byte), j ≤ k ∧ ZeroOrOneHot m ∧
      let t : State := { s with jd := { s.jd with srcPos := s.jd.srcPos + BitVec.ofNat 24 j, msk := m, cur := c } }
      bitext n s = .ok (BitVec.ofNat 16 (bitsVal (l.take n))) t ∧ t.bitString (k - j) = some (l.drop n)) ∧
  ∀ (s : State) (n k : Nat) (l : List Bool), ZeroOrOneHot s.jd.msk → SourceReady s k → s.bitString k = some l →
    l.length < n → n ≤ 11 →
    let stops := fun (r : ResultCode) (j : Nat) =>
      bitext n s = .ends r (s.advance j) ∧
      ∀ (q : QuantTable) (ssss : BitVec 4), s.jd.quant.get (s.jd.qtid (s.jd.cmp s.jd.blk)) = some q → ssss.toNat = n →
        exec (.dcClass ssss) s = .next (endCommand r (s.advance j)) ∧
        ∀ rrrr : BitVec 4, s.jd.coefIdx + rrrr.toNat < 64 →
          exec (.acRunSize rrrr ssss) s = .next (endCommand r { s.advance j with jd := { (s.advance j).jd with
            coefIdx := s.jd.coefIdx + rrrr.toNat } })
    (s.jd.srcPos.toNat + k = s.jd.srcLen.toNat → stops .inp k) ∧
    (SourceReady s (k + 1) → sourceBytes s (k + 1) = sourceBytes s k ++ [0xFF] →
      s.jd.srcPos.toNat + k + 1 = s.jd.srcLen.toNat → stops .inp (k + 1)) ∧
    ∀ xx : Byte, xx ≠ 0 → SourceReady s (k + 2) → sourceBytes s (k + 2) = sourceBytes s k ++ [0xFF, xx] →
      stops .fmt1 (k + 2)

/-- R153, over the bit string of the entropy data (R94): from the start of a HUFFEXT, steps of JD lead to the symbol whose code
is the shortest prefix of the bits that is a code word of its length, and to the bit after that code; nothing but the reader, POS
and the place of the command changes. With 16 bits and no code, they lead to FMT1. That JD moves at every step with no turn
listed is the model's choice (assumption log 1). -/
def Obligations.HuffextFindsSymbol : Prop :=
  ∀ (s : State) (cls : Bool) (t : HuffTable) (k : Nat) (l : List Bool), s.schedule = [] →
    s.jd.mode = (if cls then .huffAc else .huffDc) → s.jd.hx = ⟨0, s.jd.msk, s.jd.cur, 0, 0⟩ →
    s.jd.huff.get (s.jd.tableId s.jd.blk) cls = some t → ZeroOrOneHot s.jd.msk → SourceReady s k → s.bitString k = some l →
    (∀ n b, n < 16 → n < l.length →
      (∀ i < n, t.find i (BitVec.ofNat 16 (bitsVal (l.take (i + 1)))) = none) →
      t.find n (BitVec.ofNat 16 (bitsVal (l.take (n + 1)))) = some b →
      ∃ (N j : Nat) (m c : Byte) (h : HuffReader), j ≤ k ∧
        let u : State := { s with jd := { s.jd with
          srcPos := s.jd.srcPos + BitVec.ofNat 24 j, msk := m, cur := c, hx := h
          mode := if cls then .symbolAc b else .symbolDc b } }
        steps N s = some u ∧ u.bitString (k - j) = some (l.drop (n + 1))) ∧
    (16 ≤ l.length → (∀ i < 16, t.find i (BitVec.ofNat 16 (bitsVal (l.take (i + 1)))) = none) →
      ∃ (N j : Nat) (h : HuffReader), j ≤ k ∧
        steps N s = some (endCommand .fmt1 { s with jd := { s.jd with
          srcPos := s.jd.srcPos + BitVec.ofNat 24 j, hx := h } }))

/-- R172: EXTEND as a signed number. -/
def Obligations.ExtendIsSigned : Prop :=
  ∀ (v : Half) (s : Nat), 1 ≤ s → s ≤ 11 → v.toNat < 2 ^ s →
    (extend v s).toInt = if v.toNat < 2 ^ (s - 1) then (v.toNat : Int) - (2 ^ s - 1) else v.toNat

/-- R171, R173 and R174: the DC symbols. Class 0 leaves the predictor; class SSSS takes SSSS bits, adds EXTEND of them to the
predictor, stores the low 16 bits and uses the full sum. `tmp` is the de-quantized DC and zeros, and the AC loop begins at 1.
R128 and R170: the blocks below MSX·MSY are Y, the next one is Cb and the one after it Cr, each with its component's predictor,
its Huffman table id (Y 0, Cb and Cr 1) and its quantization table. -/
def Obligations.DcSymbols : Prop :=
  (∀ (j : Jd) (blk : Nat),
    (blk < j.msx.toNat * j.msy.toNat →
      j.cmp blk = 0 ∧ j.tableId blk = false ∧ j.qtid (j.cmp blk) = j.qtid0 ∧ j.dcv (j.cmp blk) = j.dcv0) ∧
    (blk = j.msx.toNat * j.msy.toNat →
      j.cmp blk = 1 ∧ j.tableId blk = true ∧ j.qtid (j.cmp blk) = j.qtid1 ∧ j.dcv (j.cmp blk) = j.dcv1) ∧
    (blk = j.msx.toNat * j.msy.toNat + 1 →
      j.cmp blk = 2 ∧ j.tableId blk = true ∧ j.qtid (j.cmp blk) = j.qtid2 ∧ j.dcv (j.cmp blk) = j.dcv2)) ∧
  (∀ (h : HuffTables) (id cls : Bool), h.get id cls =
    if id then (if cls then h.ac1 else h.dc1) else (if cls then h.ac0 else h.dc0)) ∧
  ∀ (s : State) (q : QuantTable), s.jd.quant.get (s.jd.qtid (s.jd.cmp s.jd.blk)) = some q →
    let cmp := s.jd.cmp s.jd.blk
    let pred : Word := (s.jd.dcv cmp).signExtend 32
    let tmp := fun d : Word => (Vector.replicate 64 (0 : Word)).set 0 (asr (d * q[0]) 8)
    exec .dcClass0 s = .next { s with jd := { s.jd with
      tmp := tmp pred, coefIdx := 1, acAny := false, mode := .huffAc, hx := ⟨0, s.jd.msk, s.jd.cur, 0, 0⟩ } } ∧
    ∀ (ssss : BitVec 4) (k : Nat) (l : List Bool), 1 ≤ ssss.toNat → ssss.toNat ≤ 11 → ZeroOrOneHot s.jd.msk →
      SourceReady s k → s.bitString k = some l → ssss.toNat ≤ l.length →
      let d := pred + extend (BitVec.ofNat 16 (bitsVal (l.take ssss.toNat))) ssss.toNat
      ∃ (j : Nat) (m c : Byte), j ≤ k ∧
        let t : State := { s with jd := { s.jd with
          srcPos := s.jd.srcPos + BitVec.ofNat 24 j, msk := m, cur := c
          dcv0 := if cmp = 0 then d.setWidth 16 else s.jd.dcv0
          dcv1 := if cmp = 1 then d.setWidth 16 else s.jd.dcv1
          dcv2 := if cmp = 0 ∨ cmp = 1 then s.jd.dcv2 else d.setWidth 16
          tmp := tmp d, coefIdx := 1, acAny := false, mode := .huffAc, hx := ⟨0, m, c, 0, 0⟩ } }
        exec (.dcClass ssss) s = .next t ∧ t.bitString (k - j) = some (l.drop ssss.toNat)

/-- R175 for the symbols that take no bits: EOB leaves the loop; ZRL and a run with class 0 skip RRRR + 1 positions; a class
above 11 ends DECOMP with FMT1 where its run does not already; and so does a run that reaches position 64. -/
def Obligations.AcSymbolsWithoutBits : Prop :=
  ∀ s : State,
    exec .acEob s = .next { s with jd := { s.jd with mode := .transform } } ∧
    (∀ rrrr : BitVec 4, rrrr ≠ 0 → ∀ i ∈ (if rrrr = 15 then [Instr.acZrl, .acRunSkip rrrr] else [.acRunSkip rrrr]),
      (64 ≤ s.jd.coefIdx + rrrr.toNat → exec i s = .next (endCommand .fmt1 s)) ∧
      (s.jd.coefIdx + rrrr.toNat < 63 → exec i s = .next { s with jd := { s.jd with
        coefIdx := s.jd.coefIdx + rrrr.toNat + 1, mode := .huffAc, hx := ⟨0, s.jd.msk, s.jd.cur, 0, 0⟩ } }) ∧
      (s.jd.coefIdx + rrrr.toNat = 63 → exec i s = .next { s with jd := { s.jd with
        coefIdx := 64, mode := .transform } })) ∧
    ∀ rrrr ssss : BitVec 4,
      (rrrr ≠ 0 → 64 ≤ s.jd.coefIdx + rrrr.toNat →
        exec (.acBadClass rrrr ssss) s = .next (endCommand .fmt1 s) ∧
        exec (.acRunSize rrrr ssss) s = .next (endCommand .fmt1 s)) ∧
      (rrrr = 0 ∨ s.jd.coefIdx + rrrr.toNat < 64 → exec (.acBadClass rrrr ssss) s = .next (endCommand .fmt1 { s with
        jd := { s.jd with coefIdx := s.jd.coefIdx + rrrr.toNat } }))

/-- R175 and R176 for a run and a class of 1 to 11: SSSS bits are taken, the de-quantized coefficient stands at ZIG of the
position after the run, and the loop goes on at the next position, or ends behind position 63. -/
def Obligations.AcCoefficient : Prop :=
  ∀ (s : State) (q : QuantTable) (rrrr ssss : BitVec 4) (k : Nat) (l : List Bool),
    s.jd.quant.get (s.jd.qtid (s.jd.cmp s.jd.blk)) = some q → 1 ≤ ssss.toNat → ssss.toNat ≤ 11 →
    s.jd.coefIdx + rrrr.toNat < 64 → ZeroOrOneHot s.jd.msk → SourceReady s k → s.bitString k = some l →
    ssss.toNat ≤ l.length →
    let i := s.jd.coefIdx + rrrr.toNat
    let e := extend (BitVec.ofNat 16 (bitsVal (l.take ssss.toNat))) ssss.toNat
    ∃ (j : Nat) (m c : Byte), j ≤ k ∧
      let t : State := { s with jd := { s.jd with
        srcPos := s.jd.srcPos + BitVec.ofNat 24 j, msk := m, cur := c
        tmp := s.jd.tmp.setIfInBounds (zigAt i) (asr (e * q.toList.getD (zigAt i) 0) 8), acAny := true
        coefIdx := i + 1, mode := if i = 63 then .transform else .huffAc
        hx := if i = 63 then s.jd.hx else ⟨0, m, c, 0, 0⟩ } }
      exec (.acRunSize rrrr ssss) s = .next t ∧ t.bitString (k - j) = some (l.drop ssss.toNat)

/-! Blocks, tiles and commands. -/

/-- R180: where only `tmp[0]` is not 0, the two passes give the flat block of the fast path, for every value of `tmp[0]`. -/
def Obligations.FastPathIsExact : Prop :=
  ∀ d : Word, columnPass (rowPass ((Vector.replicate 64 (0 : Word)).set 0 d)) =
    Vector.replicate 64 (clip8 (asr (d + 32768) 8))

/-- R177 to R179: the butterfly with its four constants, the row pass as the butterfly of each row, and the column pass as the
butterfly of each column with 32768 on its first element, shifted by 8 and clipped. R170, R180 and R181: in JD's turn TRANSFORM
stores the samples of its block and no others; then the next block's DC symbol is extracted, and after the last block of the MCU
the tile is made. -/
def Obligations.TransformStores : Prop :=
  (∀ x : Vector Word 8,
    let mul := fun a m : Word => (a * m).sshiftRight 12
    let e0 := x[0] + x[4]
    let e1 := x[0] - x[4]
    let e2 := x[2] + x[6]
    let e3 := mul (x[2] - x[6]) 5792 - e2
    let o0 := x[1] - x[7]
    let o1 := x[1] + x[7]
    let o2 := x[5] - x[3]
    let o3 := x[5] + x[3]
    let w := mul (o0 + o2) 7568
    let v7 := o1 + o3
    let v6 := w - mul o2 10703 - v7
    let v5 := mul (o1 - o3) 5792 - v6
    let v4 := w - mul o0 4433 - v5
    (bfly x).toList = [e0 + e2 + v7, e1 + e3 + v6, e1 - e3 + v5, e0 - e2 + v4,
      e0 - e2 - v4, e1 - e3 - v5, e1 + e3 - v6, e0 + e2 - v7]) ∧
  (∀ (t : Vector Word 64) (r c : Fin 8),
    (rowPass t).toList.getD (8 * r.val + c.val) 0 =
      (bfly (Vector.ofFn fun k : Fin 8 => t.toList.getD (8 * r.val + k.val) 0)).toList.getD c.val 0 ∧
    (columnPass t).toList.getD (8 * r.val + c.val) 0 =
      clip8 (((bfly (Vector.ofFn fun k : Fin 8 =>
        t.toList.getD (8 * k.val + c.val) 0 + (if k.val = 0 then 32768 else 0))).toList.getD r.val 0).sshiftRight 8)) ∧
  ∀ s u : State, s.turn = (.jd, u) → u.jd.mode = .transform → Sampling u.jd → u.jd.blk < u.jd.nby + 2 →
    ∃ t, step s = .next t ∧
      (∀ b i : Nat, t.jd.sample b i = if b = u.jd.blk then
          (if u.jd.acAny then columnPass (rowPass u.jd.tmp) else flatBlock u.jd.tmp).toList.getD i 0
        else u.jd.sample b i) ∧
      t = { u with jd := { u.jd with
        tmp := if u.jd.acAny then rowPass u.jd.tmp else u.jd.tmp
        mcubuf := t.jd.mcubuf
        blk := if u.jd.blk + 1 < u.jd.nby + 2 then u.jd.blk + 1 else u.jd.blk
        mode := if u.jd.blk + 1 < u.jd.nby + 2 then .huffDc else .output
        hx := if u.jd.blk + 1 < u.jd.nby + 2 then ⟨0, u.jd.msk, u.jd.cur, 0, 0⟩ else u.jd.hx } }

/-- R202, with R211: the MCU loop head in JD's turn: below the image DECOMP ends with OK, right of it the next row begins, and
inside it JD_POS is the corner and the MCU begins, after its restart marker where NRST MCUs have passed. -/
def Obligations.McuLoop : Prop :=
  ∀ s u : State, s.turn = (.jd, u) → u.jd.mode = .mcu →
    let begun : Jd := { u.jd with posX := u.jd.loopX.setWidth 16, posY := u.jd.loopY.setWidth 16 }
    let first := fun j : Jd => ({ j with blk := 0, mode := .huffDc, hx := ⟨0, j.msk, j.cur, 0, 0⟩ } : Jd)
    (u.jd.height.toNat ≤ u.jd.loopY.toNat → step s = .next (endCommand .ok u)) ∧
    (u.jd.loopY.toNat < u.jd.height.toNat →
      (u.jd.width.toNat ≤ u.jd.loopX.toNat → step s = .next { u with jd := { u.jd with
        loopX := 0, loopY := u.jd.loopY + BitVec.ofNat 17 (8 * u.jd.msy.toNat) } }) ∧
      (u.jd.loopX.toNat < u.jd.width.toNat →
        (u.jd.nrst = 0 → step s = .next { u with jd := first begun }) ∧
        (u.jd.nrst ≠ 0 → u.jd.rst ≠ u.jd.nrst → step s = .next { u with jd := first { begun with rst := u.jd.rst + 1 } }) ∧
        (u.jd.nrst ≠ 0 → u.jd.rst = u.jd.nrst → step s = .next { u with jd := { begun with
          rst := u.jd.rst + 1, rsc := u.jd.rsc + 1, mode := .restart } })))

/-- R204: the tile of an MCU that begins inside the image is the part of the MCU inside the image: at least 1 and at most the
MCU's size each way, with inclusive bounds that stay inside the image. -/
def Obligations.TileIsInsideImage : Prop :=
  ∀ j : Jd, Sampling j → j.nby ≠ 0 → j.loopX.toNat < j.width.toNat → j.loopY.toNat < j.height.toNat →
    let x := j.loopX.toNat
    let y := j.loopY.toNat
    let mx := 8 * j.msx.toNat
    let my := 8 * j.msy.toNat
    tileWidth j = min mx (j.width.toNat - x) ∧ tileHeight j = min my (j.height.toNat - y) ∧
    1 ≤ tileWidth j ∧ 1 ≤ tileHeight j ∧ tileWidth j * tileHeight j ≤ 256 ∧
    (tileRect j).left.toNat = x ∧ (tileRect j).top.toNat = y ∧
    (tileRect j).right.toNat = x + tileWidth j - 1 ∧ (tileRect j).bottom.toNat = y + tileHeight j - 1 ∧
    (tileRect j).right.toNat < j.width.toNat ∧ (tileRect j).bottom.toNat < j.height.toNat

/-- R209: in JD's turn MCU_OUTPUT puts the rx·ry pixels of the rectangle, in raster order, on the tile port and into `tile`,
whose other entries stay, and holds with PHASE 3. -/
def Obligations.TileIsPutOut : Prop :=
  ∀ s u : State, s.turn = (.jd, u) → u.jd.mode = .output → Sampling u.jd →
    let rx := tileWidth u.jd
    let ry := tileHeight u.jd
    ∃ t, step s = .next t ∧
      t = { u with
        jd := { u.jd with rect := tileRect u.jd, tile := t.jd.tile, phase := 3, mode := .tile }
        out := .tile (tileRect u.jd) ((List.range (rx * ry)).map fun i => u.jd.pixel (i % rx) (i / rx)) :: u.out } ∧
      ∀ i : Fin 256, t.jd.tile[i] = if i.val < rx * ry then u.jd.pixel (i.val % rx) (i.val / rx) else u.jd.tile[i]

/-- R212: over the MCUs of an image the tiles' pixel counts sum to WIDTH·HEIGHT; there are ⌈WIDTH/mx⌉ of them in a row and
⌈HEIGHT/my⌉ rows. -/
def Obligations.TilesCoverImage : Prop :=
  ∀ j : Jd, Sampling j → j.nby ≠ 0 →
    let mx := 8 * j.msx.toNat
    let my := 8 * j.msy.toNat
    let at_ := fun c r : Nat => ({ j with loopX := BitVec.ofNat 17 (c * mx), loopY := BitVec.ofNat 17 (r * my) } : Jd)
    ((List.range ((j.height.toNat + my - 1) / my)).map fun r =>
      ((List.range ((j.width.toNat + mx - 1) / mx)).map fun c => tileWidth (at_ c r) * tileHeight (at_ c r)).sum).sum =
        j.width.toNat * j.height.toNat

/-- R205 to R208: the pixel at (ix, iy) of an MCU has the luma sample of its place, the chroma samples its place shares, their
colour with products truncated toward zero, and the dither terms BAYER(ix, iy, ch) where there is more than one luma block and 0
in 4:4:4, added before the clip, wrapping as int32 (R8); its RGB565 word by bit places. -/
def Obligations.PixelColour : Prop :=
  (∀ (yy cbs crs : Byte) (br bg bb : Int),
    let y : Int := yy.toNat
    let cb : Int := cbs.toNat - 128
    let cr : Int := crs.toNat - 128
    yccToRgb (yy.setWidth 32) (cbs.setWidth 32 - 128) (crs.setWidth 32 - 128)
        (BitVec.ofInt 32 br) (BitVec.ofInt 32 bg) (BitVec.ofInt 32 bb) =
      (clip8 (BitVec.ofInt 32 (y + Int.tdiv (1435 * cr) 1024 + br)),
       clip8 (BitVec.ofInt 32 (y - Int.tdiv (352 * cb + 731 * cr) 1024 + bg)),
       clip8 (BitVec.ofInt 32 (y + Int.tdiv (1814 * cb) 1024 + bb)))) ∧
  (∀ v : Word, (clip8 v).toNat = if v.toInt < 0 then 0 else if 255 < v.toInt then 255 else v.toInt.toNat) ∧
  (∀ r g b : Byte, rgb565 r g b = r.extractLsb' 3 5 ++ g.extractLsb' 2 6 ++ b.extractLsb' 3 5) ∧
  ∀ (j : Jd) (ix iy : Nat), Sampling j → j.nby ≠ 0 → ix < 8 * j.msx.toNat → iy < 8 * j.msy.toNat →
    let nby := j.msx.toNat * j.msy.toNat
    let yb := ix / 8 + j.msx.toNat * (iy / 8)
    let cx := ix >>> (j.msx.toNat - 1)
    let cy := iy >>> (j.msy.toNat - 1)
    yb < nby ∧ cx < 8 ∧ cy < 8 ∧
    ∀ (b0 b1 b2 : Fin 6) (i k : Fin 64), b0.val = yb → b1.val = nby → b2.val = nby + 1 →
      i.val = 8 * (iy % 8) + ix % 8 → k.val = 8 * cy + cx →
      let y : Int := j.mcubuf[b0][i].toNat
      let cb : Int := j.mcubuf[b1][k].toNat - 128
      let cr : Int := j.mcubuf[b2][k].toNat - 128
      let dither := fun ch : Nat => if 1 < nby then Config.bayer ix iy ch else 0
      j.pixel ix iy = rgb565
        (clip8 (BitVec.ofInt 32 (y + Int.tdiv (1435 * cr) 1024 + dither 0)))
        (clip8 (BitVec.ofInt 32 (y - Int.tdiv (352 * cb + 731 * cr) 1024 + dither 1)))
        (clip8 (BitVec.ofInt 32 (y + Int.tdiv (1814 * cb) 1024 + dither 2)))

/-- R210: while the tile is pending JD takes no step; accept goes on right of the MCU with PHASE 2, and cancel ends DECOMP with
INTR and changes nothing else. That an answer with no tile pending is ignored in every state, and not only after a reset (R331),
is the model's choice (assumption log 23), and so is the turn in which nothing changes (assumption log 1). -/
def Obligations.TileAnswer : Prop :=
  (∀ s u : State, s.turn = (.jd, u) → u.jd.mode = .tile → step s = .next u) ∧
  ∀ (s u : State) (accept : Bool) (rest : List Input), s.turn = (.env, u) → u.inputs = .tileAnswer accept :: rest →
    let v := { u with inputs := rest }
    (u.jd.mode ≠ .tile → step s = .next v) ∧
    (u.jd.mode = .tile →
      (accept = true → step s = .next { v with jd := { v.jd with
        phase := 2, mode := .mcu, loopX := u.jd.loopX + BitVec.ofNat 17 (8 * u.jd.msx.toNat) } }) ∧
      (accept = false → step s = .next (endCommand .intr v)))

/-- R305: what the end of a JD command writes; the command is a PREPARE while PHASE is 1 (R22). `raced`, the model's record for
R69, is left open. -/
def Obligations.CommandEnd : Prop :=
  ∀ (r : ResultCode) (s : State), endCommand r s = { s with
    raced := (endCommand r s).raced
    jd := { s.jd with
      result := r, busy := false, done := true, phase := 0, mode := .idle
      prepared := if s.jd.phase = 1 then decide (r = .ok) else s.jd.prepared }
    intr := { s.intr with status := s.intr.status ||| 0x01 } }

/-! Transmission. -/

/-- R260 and R246: in its turn TXP sends nothing while a datagram is in flight or none waits; else it sends an ACK or the next
fragment, whichever waits, and either where both do. Fragment k carries the bytes from 245·k on, at most 245 of them, and the
last one is final and ends the fragmenter. That a turn with nothing to do is a step, and the numbering of the choices, are the
model's (assumption logs 1 and 6). -/
def Obligations.TransmitPort : Prop :=
  ∀ s u : State, s.turn = (.txp, u) →
    let ack := fun v : State => ({ v with
      txp := ⟨true, [0x00, 0x00, 0x00, 0x00]⟩, rx := { v.rx with ackPend := v.rx.ackPend - 1 }
      out := .radioTx [0x00, 0x00, 0x00, 0x00] :: v.out } : State)
    let k := u.txc.fragK.toNat
    let n := min 245 (u.txc.fragS.toNat - k * 245)
    let last := decide (k * 245 + n = u.txc.fragS.toNat)
    let d : List Byte := [if u.txc.fragType then 0x03 else 0x02, if last then 0x02 else 0x00, BitVec.ofNat 8 n, 0x00,
      BitVec.ofNat 8 k] ++ (List.range n).map fun a => u.txsrcByte (k * 245 + a)
    let frag := fun v : State => ({ v with
      txp := ⟨true, d⟩, out := .radioTx d :: v.out
      txc := { v.txc with fragK := v.txc.fragK + 1, fragBusy := v.txc.fragBusy && !last }
      intr := { v.intr with status := v.intr.status ||| (if last then 0x80 else 0x00) } } : State)
    (u.txp.busy = true → step s = .next u) ∧
    (u.txp.busy = false →
      (u.rx.ackPend = 0 → u.txc.fragBusy = false → step s = .next u) ∧
      (u.rx.ackPend ≠ 0 → u.txc.fragBusy = false → step s = .next (ack u)) ∧
      (u.rx.ackPend = 0 → u.txc.fragBusy = true → step s = .next (frag u)) ∧
      (u.rx.ackPend ≠ 0 → u.txc.fragBusy = true →
        step s = .next (ack { u with draws := u.draws + 1 }) ∨ step s = .next (frag { u with draws := u.draws + 1 })))

/-- R260, over all steps: a step puts at most one datagram on RADIO_TX, and only where none is in flight; it is then in flight. -/
def Obligations.StopAndWait : Prop :=
  ∀ s t : State, step s = .next t →
    t.radioSent = s.radioSent ∨
      (s.txp.busy = false ∧ t.txp.busy = true ∧ t.radioSent = t.txp.inflight :: s.radioSent)

/-- The fragments of a frame of S bytes (1 to 62,720), built as R246 says and received in order as R233 to R242 say, reproduce
the S bytes behind the captured header and complete one frame of the header's length plus S; no other byte changes (R245, R247). -/
def Obligations.FragmentsReassemble : Prop :=
  ∀ (s : State) (total : Nat) (source : Nat → Byte) (rest : List Input) (sched : List Turn), MemInv s →
    1 ≤ total → total ≤ 62720 → s.rx.hdrLen.toNat + total ≤ s.params.rxBufSize →
    let count := (total + 244) / 245
    s.inputs = ((List.range count).map fun k => .radio (fragDatagram true total k source)) ++ rest →
    s.schedule = List.replicate count .env ++ sched →
    ∃ t, steps count s = some t ∧ t.inputs = rest ∧ t.schedule = sched ∧
      (∀ (b : Bool) (a : Nat), t.rxByte b a =
        if b = s.rx.fillIdx ∧ s.rx.hdrLen.toNat ≤ a ∧ a < s.rx.hdrLen.toNat + total then source (a - s.rx.hdrLen.toNat)
        else s.rxByte b a) ∧
      t.rx = { s.rx with
        frameLen0 := if s.rx.fillIdx then s.rx.frameLen0 else BitVec.ofNat 24 (s.rx.hdrLen.toNat + total)
        frameLen1 := if s.rx.fillIdx then BitVec.ofNat 24 (s.rx.hdrLen.toNat + total) else s.rx.frameLen1
        readyIdx := s.rx.fillIdx
        overrun := s.rx.overrun || s.rx.frameReady
        frameReady := true
        ackPend := if s.rx.ackPend = 255 then 255 else s.rx.ackPend + 1 }

/-- R261 and R266: the transport's completion frees TXP and sets TX_DONE, and is ignored where nothing is in flight; a TICK
counts, and at the period in force it starts again, sets WDT_FIRE and releases a credit (R265), which a waiting request takes at
once. -/
def Obligations.CompletionAndTick : Prop :=
  ∀ (s u : State) (rest : List Input), s.turn = (.env, u) →
    let v := { u with inputs := rest }
    let period := if u.txc.firstAck then u.params.tSteady else u.params.tInit
    let c := min (u.txc.credit.toNat + 1) 5
    (u.inputs = .txdone :: rest →
      (u.txp.busy = true → step s = .next { v with
        txp := { v.txp with busy := false }, intr := { v.intr with status := v.intr.status ||| 0x20 } }) ∧
      (u.txp.busy = false → step s = .next v)) ∧
    (u.inputs = .tick :: rest →
      ((u.txc.wdtCnt + 1).toNat < period.toNat → step s = .next { v with
        txc := { v.txc with wdtCnt := u.txc.wdtCnt + 1 } }) ∧
      (period.toNat ≤ (u.txc.wdtCnt + 1).toNat →
        (u.txc.captureWait = false → step s = .next { v with
          txc := { v.txc with wdtCnt := 0, credit := BitVec.ofNat 3 c }
          intr := { v.intr with status := v.intr.status ||| 0x10 } }) ∧
        (u.txc.captureWait = true → step s = .next { v with
          txc := { v.txc with wdtCnt := 0, credit := BitVec.ofNat 3 (c - 1), captureWait := false }
          intr := { v.intr with status := v.intr.status ||| 0x10 ||| 0x40 } })))

/-! Reset, registers, memory. -/

/-- R330: every element that has a reset value, and the free values of those that have none. That DECOMP's and HUFFEXT's loop
variables are 0 is the model's choice (assumption log 22) and is not stated. -/
def Obligations.ResetState : Prop :=
  ∀ (p : Params) (epoch : Nat),
    let s := State.resetWith p epoch
    s.jd = { s.jd with
      busy := false, prepared := false, done := false, cmdIgnored := false, result := .ok, phase := 0
      width := 0, height := 0, msx := 0, msy := 0, nrst := 0, qtid0 := 0, qtid1 := 0, qtid2 := 0
      huff := ⟨none, none, none, none⟩, quant := ⟨none, none, none, none⟩, used := 0, posX := 0, posY := 0
      srcIdx := false, srcLen := 0, srcPos := 0, dcv0 := 0, dcv1 := 0, dcv2 := 0, cur := 0, msk := 0, rst := 0, rsc := 0
      mode := .idle } ∧
    s.rx = ⟨false, false, false, false, false, false, 0, 0, 0, false, false, 0, 0, 0⟩ ∧
    s.txp.busy = false ∧
    s.txc = ⟨false, false, p.creditInit, 0, 0, false, 0, 0, false⟩ ∧
    s.intr = ⟨0, 0⟩ ∧ irq s.intr = false ∧ s.params = p ∧
    (∀ (b : Bool) (a : Nat), s.rxByte b a = Config.rxbufDraw epoch b.toNat a) ∧
    regRead s 0x20 = p.poolSize.setWidth 32 <<< 16 ∧ State.reset = State.resetWith Params.config 0

/-- R331: reset acts in one step whatever runs, and leaves the environment's side as it is: TXSRC, the inputs to come, what was
put out (assumption log 15). No JD_DONE is raised. A txdone after it is ignored, as is a tile answer. -/
def Obligations.ResetInput : Prop :=
  (∀ (s u : State) (rest : List Input), s.turn = (.env, u) → u.inputs = .reset :: rest →
    step s = .next { State.resetWith u.params (u.epoch + 1) with
      txsrc := u.txsrc, draws := u.draws, inputs := rest, schedule := u.schedule, out := u.out }) ∧
  ∀ (p : Params) (epoch : Nat) (accept : Bool),
    txDone (State.resetWith p epoch) = State.resetWith p epoch ∧
      answerTile accept (State.resetWith p epoch) = State.resetWith p epoch

/-- R43, R45: a host access of 4 aligned bytes in the register space: a read changes nothing but the record of the values read, an
unmapped offset reads 0, and a write that is no command changes its own field or nothing (R35, R40: a control word without its
command bit is no command). Every other access is refused: R43 says so for another width or alignment, and for an offset of 256
or above it is the model's choice (assumption log 10). The record of the values read is the model's own (assumption log 14). -/
def Obligations.RegisterAccess : Prop :=
  ∀ (s u : State) (off n : Nat) (w : Word) (rest : List Input), s.turn = (.env, u) →
    let v := { u with inputs := rest }
    (u.inputs = .regRead off n :: rest →
      (n = 4 ∧ off % 4 = 0 ∧ off < 256 → step s = .next { v with out := .regValue off (regRead v off) :: u.out }) ∧
      (¬ (n = 4 ∧ off % 4 = 0 ∧ off < 256) → step s = .refused .registerAccess)) ∧
    (u.inputs = .regWrite off n w :: rest →
      (¬ (n = 4 ∧ off % 4 = 0 ∧ off < 256) → step s = .refused .registerAccess) ∧
      (n = 4 → off = 0x90 → step s = .next { v with txc := { v.txc with fragLen := w.setWidth 24 } }) ∧
      (n = 4 → off = 0xC4 → step s = .next { v with intr := { v.intr with enable := w.setWidth 8 } }) ∧
      (n = 4 → off = 0x40 → w.getLsbD 0 = false → w.getLsbD 1 = false → step s = .next v) ∧
      (n = 4 → off = 0x80 ∨ off = 0x94 → w.getLsbD 0 = false → step s = .next v) ∧
      (n = 4 → off % 4 = 0 → off < 256 → off ∉ [0x00, 0x40, 0x80, 0x90, 0x94, 0xC0, 0xC4] → step s = .next v)) ∧
    (off ∉ [0x04, 0x08, 0x0C, 0x10, 0x14, 0x18, 0x1C, 0x20, 0x24, 0x44, 0x48, 0x4C, 0x50, 0x54, 0x58, 0x5C, 0x84, 0x88, 0x8C,
      0x90, 0xC0, 0xC4] → regRead s off = 0)

/-- R22 to R25, R36, R37, R40 and R42: the fields of the registers stand at their bits, and every other bit reads 0; and the
numbers of the result codes (R301). -/
def Obligations.RegisterFields : Prop :=
  [ResultCode.ok, .intr, .inp, .mem1, .mem2, .par, .fmt1, .fmt2, .fmt3].map (fun r => r.code.toNat) =
    [0, 1, 2, 3, 4, 5, 6, 7, 8] ∧
  ∀ s : State,
    let field := fun (off lo n : Nat) => ((regRead s off).toNat / 2 ^ lo) % 2 ^ n
    let bit := fun (off lo : Nat) => (regRead s off).getLsbD lo
    bit 0x04 0 = s.jd.busy ∧ bit 0x04 1 = s.jd.prepared ∧ bit 0x04 2 = s.jd.done ∧ bit 0x04 3 = s.jd.cmdIgnored ∧
    field 0x04 4 4 = s.jd.result.code.toNat ∧ field 0x04 8 2 = s.jd.phase.toNat ∧ field 0x04 10 22 = 0 ∧
    field 0x08 0 16 = s.jd.width.toNat ∧ field 0x08 16 16 = s.jd.height.toNat ∧
    field 0x0C 0 2 = s.jd.msx.toNat ∧ field 0x0C 2 2 = s.jd.msy.toNat ∧ field 0x0C 4 12 = 0 ∧
    field 0x0C 16 16 = s.jd.nrst.toNat ∧
    field 0x10 0 2 = s.jd.qtid0.toNat ∧ field 0x10 2 2 = s.jd.qtid1.toNat ∧ field 0x10 4 2 = s.jd.qtid2.toNat ∧
    field 0x10 6 26 = 0 ∧
    field 0x14 0 16 = s.jd.posX.toNat ∧ field 0x14 16 16 = s.jd.posY.toNat ∧
    field 0x18 0 32 = s.jd.srcLen.toNat ∧ field 0x1C 0 32 = s.jd.srcPos.toNat ∧
    field 0x20 0 16 = s.jd.used.toNat ∧ field 0x20 16 16 = (s.params.poolSize - s.jd.used).toNat ∧
    (∀ id cls : Bool, bit 0x24 (2 * id.toNat + cls.toNat) = (s.jd.huff.get id cls).isSome) ∧
    (∀ i : BitVec 2, bit 0x24 (4 + i.toNat) = (s.jd.quant.get i).isSome) ∧ field 0x24 8 24 = 0 ∧
    bit 0x44 0 = s.rx.hdrValid ∧ bit 0x44 1 = s.rx.frameReady ∧ bit 0x44 2 = s.rx.fillIdx ∧ bit 0x44 3 = s.rx.readyIdx ∧
    bit 0x44 4 = s.rx.overrun ∧ bit 0x44 5 = s.rx.bounds ∧ field 0x44 6 26 = 0 ∧
    field 0x48 0 32 = s.rx.hdrLen.toNat ∧ field 0x4C 0 32 = s.rx.frameLen0.toNat ∧ field 0x50 0 32 = s.rx.frameLen1.toNat ∧
    bit 0x54 0 = s.rx.takeIdx ∧ bit 0x54 1 = s.rx.takeValid ∧ field 0x54 2 6 = 0 ∧ field 0x54 8 24 = s.rx.takeLen.toNat ∧
    field 0x58 0 32 = s.rx.dropCnt.toNat ∧ field 0x5C 0 32 = s.rx.ackPend.toNat ∧
    bit 0x84 0 = s.txc.firstAck ∧ bit 0x84 1 = s.txc.captureWait ∧ bit 0x84 2 = s.txc.fragBusy ∧ bit 0x84 3 = s.txp.busy ∧
    field 0x84 4 28 = 0 ∧ field 0x88 0 32 = s.txc.credit.toNat ∧ field 0x8C 0 32 = s.txc.wdtCnt.toNat ∧
    field 0x90 0 32 = s.txc.fragLen.toNat ∧
    field 0xC0 0 32 = s.intr.status.toNat ∧ field 0xC4 0 32 = s.intr.enable.toNat

/-- R69: while a JD command runs on the buffer written, an RX write of a byte keeps the value it overwrites; a JD read gives the
value now stored or one of those kept for that address, and where none is kept, the value now stored. Another buffer's write keeps
nothing. The camera's writes change the bytes written and no other (R73). The kept values are the model's form of R69 (assumption
log 5). -/
def Obligations.BufferBytes : Prop :=
  (∀ (s : State) (b c : Bool) (a x : Nat) (v : Byte), (s.rxbuf b).wf →
    (rxWrite b a v s).rxByte c x = (if c = b ∧ x = a then v else s.rxByte c x) ∧
    (rxWrite b a v s).oldValues x =
      (if s.jd.busy = true ∧ s.jd.srcIdx = b ∧ x = a then s.rxByte b a :: s.oldValues x else s.oldValues x)) ∧
  (∀ (s : State) (a : Nat),
    (jdRead a s).1 ∈ s.rxByte s.jd.srcIdx a :: s.oldValues a ∧
    (s.oldValues a = [] → jdRead a s = (s.rxByte s.jd.srcIdx a, s))) ∧
  ∀ (s : State) (a x : Nat) (bs : List Byte), s.txsrc.wf →
    (cameraWrite a bs s).txsrcByte x = (if a ≤ x ∧ x < a + bs.length then bs.getD (x - a) 0 else s.txsrcByte x) ∧
    cameraWrite a bs s = { s with txsrc := (cameraWrite a bs s).txsrc }

/-! What every step keeps. -/

/-- A step of JD changes the JD unit, JD_DONE and its tile output, and nothing of the other units, of the buffers or of TXSRC
(R44, R71, R306; what the model itself keeps count of apart). -/
def Obligations.DecoderTouchesOnlyItself : Prop :=
  ∀ s t : State, s.turn.1 = .jd → step s = .next t →
    t = { s with
      jd := t.jd, intr := { s.intr with status := t.intr.status }, out := t.out
      raced := t.raced, draws := t.draws, schedule := t.schedule } ∧
    (t.intr.status = s.intr.status ∨ t.intr.status = s.intr.status ||| 0x01) ∧
    (t.out = s.out ∨ ∃ r px, t.out = .tile r px :: s.out)

/-- No step changes the parameters (R6), and FIRST_ACK falls only at a reset (R267). -/
def Obligations.ParametersAndFirstAckStay : Prop :=
  ∀ s t : State, step s = .next t →
    t.params = s.params ∧ (s.txc.firstAck = true → t.txc.firstAck = true ∨ t.epoch = s.epoch + 1)

/-- Every step keeps the canonical form of the three memories (the model's own form of R60's byte spaces, assumption log 4). -/
def Obligations.MemoryStaysCanonical : Prop :=
  ∀ s t : State, MemInv s → step s = .next t → MemInv t

/-- Every step keeps the credit at most 5 and at 0 while a request waits (R264, R265), the watchdog count below its period
(R266), a busy fragmenter with a byte to send (R245), the captured lengths inside a buffer (R150, R235), and a ready frame in the
buffer being filled (R243). -/
def Obligations.LinkInvariants : Prop :=
  ∀ s t : State, step s = .next t →
    (CreditInv s → CreditInv t) ∧ (WatchdogInv s → WatchdogInv t) ∧ (FragInv s → FragInv t) ∧ (RxInv s → RxInv t)

/-- Every step keeps the invariant of the JD unit: the source inside its buffer (R150), status bits that agree with the place of
the command (R22), FMT2 never a result (R301), USED within the arena (R26), all tables present while DECOMP runs (R27, R130), and
a bit mask that is 0 or one-hot (R30). -/
def Obligations.DecoderInvariant : Prop :=
  ∀ s t : State, JdInv s → step s = .next t → JdInv t

/-- Right after any reset with legal parameters all the invariants hold, and the parameters of the machine are legal. -/
def Obligations.ResetMeetsInvariants : Prop :=
  (∀ (p : Params) (epoch : Nat), p.Legal →
    let s := State.resetWith p epoch
    MemInv s ∧ CreditInv s ∧ WatchdogInv s ∧ FragInv s ∧ RxInv s ∧ JdInv s) ∧
  Params.config.Legal

/-- Under the invariant of the JD unit no step faults, and the only refusal is that of a register access that R43 leaves out: JD
reads no address outside its buffer (R150) and no table that is not present (R27), and meets no DC symbol above 11 (R95). -/
def Obligations.StepsAreSafe : Prop :=
  ∀ s : State, JdInv s → SafeStep s
end

