-- ==== Sys2Proof/Laws/State.lean ====
section
/-! SUPPORT. One lemma per field of State per update of it, and the accessors on them. -/

namespace Sys2Proof.Machine

variable (s : State)

@[simp] theorem State.setJd_params (j : Jd) : (s.setJd j).params = s.params := rfl
@[simp] theorem State.setJd_jd (j : Jd) : (s.setJd j).jd = j := rfl
@[simp] theorem State.setJd_rx (j : Jd) : (s.setJd j).rx = s.rx := rfl
@[simp] theorem State.setJd_txp (j : Jd) : (s.setJd j).txp = s.txp := rfl
@[simp] theorem State.setJd_txc (j : Jd) : (s.setJd j).txc = s.txc := rfl
@[simp] theorem State.setJd_intr (j : Jd) : (s.setJd j).intr = s.intr := rfl
@[simp] theorem State.setJd_rxbuf0 (j : Jd) : (s.setJd j).rxbuf0 = s.rxbuf0 := rfl
@[simp] theorem State.setJd_rxbuf1 (j : Jd) : (s.setJd j).rxbuf1 = s.rxbuf1 := rfl
@[simp] theorem State.setJd_txsrc (j : Jd) : (s.setJd j).txsrc = s.txsrc := rfl
@[simp] theorem State.setJd_raced (j : Jd) : (s.setJd j).raced = s.raced := rfl
@[simp] theorem State.setJd_draws (j : Jd) : (s.setJd j).draws = s.draws := rfl
@[simp] theorem State.setJd_epoch (j : Jd) : (s.setJd j).epoch = s.epoch := rfl
@[simp] theorem State.setJd_inputs (j : Jd) : (s.setJd j).inputs = s.inputs := rfl
@[simp] theorem State.setJd_schedule (j : Jd) : (s.setJd j).schedule = s.schedule := rfl
@[simp] theorem State.setJd_out (j : Jd) : (s.setJd j).out = s.out := rfl

@[simp] theorem State.setRx_params (r : Rx) : (s.setRx r).params = s.params := rfl
@[simp] theorem State.setRx_jd (r : Rx) : (s.setRx r).jd = s.jd := rfl
@[simp] theorem State.setRx_rx (r : Rx) : (s.setRx r).rx = r := rfl
@[simp] theorem State.setRx_txp (r : Rx) : (s.setRx r).txp = s.txp := rfl
@[simp] theorem State.setRx_txc (r : Rx) : (s.setRx r).txc = s.txc := rfl
@[simp] theorem State.setRx_intr (r : Rx) : (s.setRx r).intr = s.intr := rfl
@[simp] theorem State.setRx_rxbuf0 (r : Rx) : (s.setRx r).rxbuf0 = s.rxbuf0 := rfl
@[simp] theorem State.setRx_rxbuf1 (r : Rx) : (s.setRx r).rxbuf1 = s.rxbuf1 := rfl
@[simp] theorem State.setRx_txsrc (r : Rx) : (s.setRx r).txsrc = s.txsrc := rfl
@[simp] theorem State.setRx_raced (r : Rx) : (s.setRx r).raced = s.raced := rfl
@[simp] theorem State.setRx_draws (r : Rx) : (s.setRx r).draws = s.draws := rfl
@[simp] theorem State.setRx_epoch (r : Rx) : (s.setRx r).epoch = s.epoch := rfl
@[simp] theorem State.setRx_inputs (r : Rx) : (s.setRx r).inputs = s.inputs := rfl
@[simp] theorem State.setRx_schedule (r : Rx) : (s.setRx r).schedule = s.schedule := rfl
@[simp] theorem State.setRx_out (r : Rx) : (s.setRx r).out = s.out := rfl

@[simp] theorem State.setTxp_params (p : Txp) : (s.setTxp p).params = s.params := rfl
@[simp] theorem State.setTxp_jd (p : Txp) : (s.setTxp p).jd = s.jd := rfl
@[simp] theorem State.setTxp_rx (p : Txp) : (s.setTxp p).rx = s.rx := rfl
@[simp] theorem State.setTxp_txp (p : Txp) : (s.setTxp p).txp = p := rfl
@[simp] theorem State.setTxp_txc (p : Txp) : (s.setTxp p).txc = s.txc := rfl
@[simp] theorem State.setTxp_intr (p : Txp) : (s.setTxp p).intr = s.intr := rfl
@[simp] theorem State.setTxp_rxbuf0 (p : Txp) : (s.setTxp p).rxbuf0 = s.rxbuf0 := rfl
@[simp] theorem State.setTxp_rxbuf1 (p : Txp) : (s.setTxp p).rxbuf1 = s.rxbuf1 := rfl
@[simp] theorem State.setTxp_txsrc (p : Txp) : (s.setTxp p).txsrc = s.txsrc := rfl
@[simp] theorem State.setTxp_raced (p : Txp) : (s.setTxp p).raced = s.raced := rfl
@[simp] theorem State.setTxp_draws (p : Txp) : (s.setTxp p).draws = s.draws := rfl
@[simp] theorem State.setTxp_epoch (p : Txp) : (s.setTxp p).epoch = s.epoch := rfl
@[simp] theorem State.setTxp_inputs (p : Txp) : (s.setTxp p).inputs = s.inputs := rfl
@[simp] theorem State.setTxp_schedule (p : Txp) : (s.setTxp p).schedule = s.schedule := rfl
@[simp] theorem State.setTxp_out (p : Txp) : (s.setTxp p).out = s.out := rfl

@[simp] theorem State.setTxc_params (t : Txc) : (s.setTxc t).params = s.params := rfl
@[simp] theorem State.setTxc_jd (t : Txc) : (s.setTxc t).jd = s.jd := rfl
@[simp] theorem State.setTxc_rx (t : Txc) : (s.setTxc t).rx = s.rx := rfl
@[simp] theorem State.setTxc_txp (t : Txc) : (s.setTxc t).txp = s.txp := rfl
@[simp] theorem State.setTxc_txc (t : Txc) : (s.setTxc t).txc = t := rfl
@[simp] theorem State.setTxc_intr (t : Txc) : (s.setTxc t).intr = s.intr := rfl
@[simp] theorem State.setTxc_rxbuf0 (t : Txc) : (s.setTxc t).rxbuf0 = s.rxbuf0 := rfl
@[simp] theorem State.setTxc_rxbuf1 (t : Txc) : (s.setTxc t).rxbuf1 = s.rxbuf1 := rfl
@[simp] theorem State.setTxc_txsrc (t : Txc) : (s.setTxc t).txsrc = s.txsrc := rfl
@[simp] theorem State.setTxc_raced (t : Txc) : (s.setTxc t).raced = s.raced := rfl
@[simp] theorem State.setTxc_draws (t : Txc) : (s.setTxc t).draws = s.draws := rfl
@[simp] theorem State.setTxc_epoch (t : Txc) : (s.setTxc t).epoch = s.epoch := rfl
@[simp] theorem State.setTxc_inputs (t : Txc) : (s.setTxc t).inputs = s.inputs := rfl
@[simp] theorem State.setTxc_schedule (t : Txc) : (s.setTxc t).schedule = s.schedule := rfl
@[simp] theorem State.setTxc_out (t : Txc) : (s.setTxc t).out = s.out := rfl

@[simp] theorem State.setIntr_params (i : Intr) : (s.setIntr i).params = s.params := rfl
@[simp] theorem State.setIntr_jd (i : Intr) : (s.setIntr i).jd = s.jd := rfl
@[simp] theorem State.setIntr_rx (i : Intr) : (s.setIntr i).rx = s.rx := rfl
@[simp] theorem State.setIntr_txp (i : Intr) : (s.setIntr i).txp = s.txp := rfl
@[simp] theorem State.setIntr_txc (i : Intr) : (s.setIntr i).txc = s.txc := rfl
@[simp] theorem State.setIntr_intr (i : Intr) : (s.setIntr i).intr = i := rfl
@[simp] theorem State.setIntr_rxbuf0 (i : Intr) : (s.setIntr i).rxbuf0 = s.rxbuf0 := rfl
@[simp] theorem State.setIntr_rxbuf1 (i : Intr) : (s.setIntr i).rxbuf1 = s.rxbuf1 := rfl
@[simp] theorem State.setIntr_txsrc (i : Intr) : (s.setIntr i).txsrc = s.txsrc := rfl
@[simp] theorem State.setIntr_raced (i : Intr) : (s.setIntr i).raced = s.raced := rfl
@[simp] theorem State.setIntr_draws (i : Intr) : (s.setIntr i).draws = s.draws := rfl
@[simp] theorem State.setIntr_epoch (i : Intr) : (s.setIntr i).epoch = s.epoch := rfl
@[simp] theorem State.setIntr_inputs (i : Intr) : (s.setIntr i).inputs = s.inputs := rfl
@[simp] theorem State.setIntr_schedule (i : Intr) : (s.setIntr i).schedule = s.schedule := rfl
@[simp] theorem State.setIntr_out (i : Intr) : (s.setIntr i).out = s.out := rfl

@[simp] theorem State.setTxsrc_params (m : Memory) : (s.setTxsrc m).params = s.params := rfl
@[simp] theorem State.setTxsrc_jd (m : Memory) : (s.setTxsrc m).jd = s.jd := rfl
@[simp] theorem State.setTxsrc_rx (m : Memory) : (s.setTxsrc m).rx = s.rx := rfl
@[simp] theorem State.setTxsrc_txp (m : Memory) : (s.setTxsrc m).txp = s.txp := rfl
@[simp] theorem State.setTxsrc_txc (m : Memory) : (s.setTxsrc m).txc = s.txc := rfl
@[simp] theorem State.setTxsrc_intr (m : Memory) : (s.setTxsrc m).intr = s.intr := rfl
@[simp] theorem State.setTxsrc_rxbuf0 (m : Memory) : (s.setTxsrc m).rxbuf0 = s.rxbuf0 := rfl
@[simp] theorem State.setTxsrc_rxbuf1 (m : Memory) : (s.setTxsrc m).rxbuf1 = s.rxbuf1 := rfl
@[simp] theorem State.setTxsrc_txsrc (m : Memory) : (s.setTxsrc m).txsrc = m := rfl
@[simp] theorem State.setTxsrc_raced (m : Memory) : (s.setTxsrc m).raced = s.raced := rfl
@[simp] theorem State.setTxsrc_draws (m : Memory) : (s.setTxsrc m).draws = s.draws := rfl
@[simp] theorem State.setTxsrc_epoch (m : Memory) : (s.setTxsrc m).epoch = s.epoch := rfl
@[simp] theorem State.setTxsrc_inputs (m : Memory) : (s.setTxsrc m).inputs = s.inputs := rfl
@[simp] theorem State.setTxsrc_schedule (m : Memory) : (s.setTxsrc m).schedule = s.schedule := rfl
@[simp] theorem State.setTxsrc_out (m : Memory) : (s.setTxsrc m).out = s.out := rfl

@[simp] theorem State.setRaced_params (l : List Host.Cell) : (s.setRaced l).params = s.params := rfl
@[simp] theorem State.setRaced_jd (l : List Host.Cell) : (s.setRaced l).jd = s.jd := rfl
@[simp] theorem State.setRaced_rx (l : List Host.Cell) : (s.setRaced l).rx = s.rx := rfl
@[simp] theorem State.setRaced_txp (l : List Host.Cell) : (s.setRaced l).txp = s.txp := rfl
@[simp] theorem State.setRaced_txc (l : List Host.Cell) : (s.setRaced l).txc = s.txc := rfl
@[simp] theorem State.setRaced_intr (l : List Host.Cell) : (s.setRaced l).intr = s.intr := rfl
@[simp] theorem State.setRaced_rxbuf0 (l : List Host.Cell) : (s.setRaced l).rxbuf0 = s.rxbuf0 := rfl
@[simp] theorem State.setRaced_rxbuf1 (l : List Host.Cell) : (s.setRaced l).rxbuf1 = s.rxbuf1 := rfl
@[simp] theorem State.setRaced_txsrc (l : List Host.Cell) : (s.setRaced l).txsrc = s.txsrc := rfl
@[simp] theorem State.setRaced_raced (l : List Host.Cell) : (s.setRaced l).raced = l := rfl
@[simp] theorem State.setRaced_draws (l : List Host.Cell) : (s.setRaced l).draws = s.draws := rfl
@[simp] theorem State.setRaced_epoch (l : List Host.Cell) : (s.setRaced l).epoch = s.epoch := rfl
@[simp] theorem State.setRaced_inputs (l : List Host.Cell) : (s.setRaced l).inputs = s.inputs := rfl
@[simp] theorem State.setRaced_schedule (l : List Host.Cell) : (s.setRaced l).schedule = s.schedule := rfl
@[simp] theorem State.setRaced_out (l : List Host.Cell) : (s.setRaced l).out = s.out := rfl

@[simp] theorem State.draw_params : s.draw.params = s.params := rfl
@[simp] theorem State.draw_jd : s.draw.jd = s.jd := rfl
@[simp] theorem State.draw_rx : s.draw.rx = s.rx := rfl
@[simp] theorem State.draw_txp : s.draw.txp = s.txp := rfl
@[simp] theorem State.draw_txc : s.draw.txc = s.txc := rfl
@[simp] theorem State.draw_intr : s.draw.intr = s.intr := rfl
@[simp] theorem State.draw_rxbuf0 : s.draw.rxbuf0 = s.rxbuf0 := rfl
@[simp] theorem State.draw_rxbuf1 : s.draw.rxbuf1 = s.rxbuf1 := rfl
@[simp] theorem State.draw_txsrc : s.draw.txsrc = s.txsrc := rfl
@[simp] theorem State.draw_raced : s.draw.raced = s.raced := rfl
@[simp] theorem State.draw_draws : s.draw.draws = s.draws + 1 := rfl
@[simp] theorem State.draw_epoch : s.draw.epoch = s.epoch := rfl
@[simp] theorem State.draw_inputs : s.draw.inputs = s.inputs := rfl
@[simp] theorem State.draw_schedule : s.draw.schedule = s.schedule := rfl
@[simp] theorem State.draw_out : s.draw.out = s.out := rfl

@[simp] theorem State.emit_params (o : Output) : (s.emit o).params = s.params := rfl
@[simp] theorem State.emit_jd (o : Output) : (s.emit o).jd = s.jd := rfl
@[simp] theorem State.emit_rx (o : Output) : (s.emit o).rx = s.rx := rfl
@[simp] theorem State.emit_txp (o : Output) : (s.emit o).txp = s.txp := rfl
@[simp] theorem State.emit_txc (o : Output) : (s.emit o).txc = s.txc := rfl
@[simp] theorem State.emit_intr (o : Output) : (s.emit o).intr = s.intr := rfl
@[simp] theorem State.emit_rxbuf0 (o : Output) : (s.emit o).rxbuf0 = s.rxbuf0 := rfl
@[simp] theorem State.emit_rxbuf1 (o : Output) : (s.emit o).rxbuf1 = s.rxbuf1 := rfl
@[simp] theorem State.emit_txsrc (o : Output) : (s.emit o).txsrc = s.txsrc := rfl
@[simp] theorem State.emit_raced (o : Output) : (s.emit o).raced = s.raced := rfl
@[simp] theorem State.emit_draws (o : Output) : (s.emit o).draws = s.draws := rfl
@[simp] theorem State.emit_epoch (o : Output) : (s.emit o).epoch = s.epoch := rfl
@[simp] theorem State.emit_inputs (o : Output) : (s.emit o).inputs = s.inputs := rfl
@[simp] theorem State.emit_schedule (o : Output) : (s.emit o).schedule = s.schedule := rfl
@[simp] theorem State.emit_out (o : Output) : (s.emit o).out = o :: s.out := rfl

@[simp] theorem State.event_params (e : Event) : (s.event e).params = s.params := rfl
@[simp] theorem State.event_jd (e : Event) : (s.event e).jd = s.jd := rfl
@[simp] theorem State.event_rx (e : Event) : (s.event e).rx = s.rx := rfl
@[simp] theorem State.event_txp (e : Event) : (s.event e).txp = s.txp := rfl
@[simp] theorem State.event_txc (e : Event) : (s.event e).txc = s.txc := rfl
@[simp] theorem State.event_intr (e : Event) : (s.event e).intr = { s.intr with status := intUpdate s.intr.status 0 e.bit } := rfl
@[simp] theorem State.event_rxbuf0 (e : Event) : (s.event e).rxbuf0 = s.rxbuf0 := rfl
@[simp] theorem State.event_rxbuf1 (e : Event) : (s.event e).rxbuf1 = s.rxbuf1 := rfl
@[simp] theorem State.event_txsrc (e : Event) : (s.event e).txsrc = s.txsrc := rfl
@[simp] theorem State.event_raced (e : Event) : (s.event e).raced = s.raced := rfl
@[simp] theorem State.event_draws (e : Event) : (s.event e).draws = s.draws := rfl
@[simp] theorem State.event_epoch (e : Event) : (s.event e).epoch = s.epoch := rfl
@[simp] theorem State.event_inputs (e : Event) : (s.event e).inputs = s.inputs := rfl
@[simp] theorem State.event_schedule (e : Event) : (s.event e).schedule = s.schedule := rfl
@[simp] theorem State.event_out (e : Event) : (s.event e).out = s.out := rfl

@[simp] theorem State.setRxbuf_params (b : Bool) (m : Memory) : (s.setRxbuf b m).params = s.params := by cases b <;> rfl
@[simp] theorem State.setRxbuf_jd (b : Bool) (m : Memory) : (s.setRxbuf b m).jd = s.jd := by cases b <;> rfl
@[simp] theorem State.setRxbuf_rx (b : Bool) (m : Memory) : (s.setRxbuf b m).rx = s.rx := by cases b <;> rfl
@[simp] theorem State.setRxbuf_txp (b : Bool) (m : Memory) : (s.setRxbuf b m).txp = s.txp := by cases b <;> rfl
@[simp] theorem State.setRxbuf_txc (b : Bool) (m : Memory) : (s.setRxbuf b m).txc = s.txc := by cases b <;> rfl
@[simp] theorem State.setRxbuf_intr (b : Bool) (m : Memory) : (s.setRxbuf b m).intr = s.intr := by cases b <;> rfl
@[simp] theorem State.setRxbuf_rxbuf0 (b : Bool) (m : Memory) : (s.setRxbuf b m).rxbuf0 = if b then s.rxbuf0 else m := by
  cases b <;> rfl
@[simp] theorem State.setRxbuf_rxbuf1 (b : Bool) (m : Memory) : (s.setRxbuf b m).rxbuf1 = if b then m else s.rxbuf1 := by
  cases b <;> rfl
@[simp] theorem State.setRxbuf_txsrc (b : Bool) (m : Memory) : (s.setRxbuf b m).txsrc = s.txsrc := by cases b <;> rfl
@[simp] theorem State.setRxbuf_raced (b : Bool) (m : Memory) : (s.setRxbuf b m).raced = s.raced := by cases b <;> rfl
@[simp] theorem State.setRxbuf_draws (b : Bool) (m : Memory) : (s.setRxbuf b m).draws = s.draws := by cases b <;> rfl
@[simp] theorem State.setRxbuf_epoch (b : Bool) (m : Memory) : (s.setRxbuf b m).epoch = s.epoch := by cases b <;> rfl
@[simp] theorem State.setRxbuf_inputs (b : Bool) (m : Memory) : (s.setRxbuf b m).inputs = s.inputs := by cases b <;> rfl
@[simp] theorem State.setRxbuf_schedule (b : Bool) (m : Memory) : (s.setRxbuf b m).schedule = s.schedule := by cases b <;> rfl
@[simp] theorem State.setRxbuf_out (b : Bool) (m : Memory) : (s.setRxbuf b m).out = s.out := by cases b <;> rfl

@[simp] theorem State.setJd_rxbuf (j : Jd) (c : Bool) : (s.setJd j).rxbuf c = s.rxbuf c := rfl
@[simp] theorem State.setRx_rxbuf (r : Rx) (c : Bool) : (s.setRx r).rxbuf c = s.rxbuf c := rfl
@[simp] theorem State.setTxp_rxbuf (p : Txp) (c : Bool) : (s.setTxp p).rxbuf c = s.rxbuf c := rfl
@[simp] theorem State.setTxc_rxbuf (t : Txc) (c : Bool) : (s.setTxc t).rxbuf c = s.rxbuf c := rfl
@[simp] theorem State.setIntr_rxbuf (i : Intr) (c : Bool) : (s.setIntr i).rxbuf c = s.rxbuf c := rfl
@[simp] theorem State.setTxsrc_rxbuf (m : Memory) (c : Bool) : (s.setTxsrc m).rxbuf c = s.rxbuf c := rfl
@[simp] theorem State.setRaced_rxbuf (l : List Host.Cell) (c : Bool) : (s.setRaced l).rxbuf c = s.rxbuf c := rfl
@[simp] theorem State.draw_rxbuf (c : Bool) : s.draw.rxbuf c = s.rxbuf c := rfl
@[simp] theorem State.emit_rxbuf (o : Output) (c : Bool) : (s.emit o).rxbuf c = s.rxbuf c := rfl
@[simp] theorem State.event_rxbuf (e : Event) (c : Bool) : (s.event e).rxbuf c = s.rxbuf c := rfl
@[simp] theorem State.setRxbuf_rxbuf_same (b : Bool) (m : Memory) : (s.setRxbuf b m).rxbuf b = m := by cases b <;> rfl
@[simp] theorem State.setRxbuf_rxbuf_not (b : Bool) (m : Memory) : (s.setRxbuf b m).rxbuf (!b) = s.rxbuf (!b) := by
  cases b <;> rfl

theorem State.setRxbuf_rxbuf (b c : Bool) (m : Memory) : (s.setRxbuf b m).rxbuf c = if c = b then m else s.rxbuf c := by
  cases b <;> cases c <;> rfl

@[simp] theorem State.setJd_rxByte (j : Jd) (c : Bool) (a : Nat) : (s.setJd j).rxByte c a = s.rxByte c a := rfl
@[simp] theorem State.setRx_rxByte (r : Rx) (c : Bool) (a : Nat) : (s.setRx r).rxByte c a = s.rxByte c a := rfl
@[simp] theorem State.setTxp_rxByte (p : Txp) (c : Bool) (a : Nat) : (s.setTxp p).rxByte c a = s.rxByte c a := rfl
@[simp] theorem State.setTxc_rxByte (t : Txc) (c : Bool) (a : Nat) : (s.setTxc t).rxByte c a = s.rxByte c a := rfl
@[simp] theorem State.setIntr_rxByte (i : Intr) (c : Bool) (a : Nat) : (s.setIntr i).rxByte c a = s.rxByte c a := rfl
@[simp] theorem State.setTxsrc_rxByte (m : Memory) (c : Bool) (a : Nat) : (s.setTxsrc m).rxByte c a = s.rxByte c a := rfl
@[simp] theorem State.setRaced_rxByte (l : List Host.Cell) (c : Bool) (a : Nat) : (s.setRaced l).rxByte c a = s.rxByte c a := rfl
@[simp] theorem State.draw_rxByte (c : Bool) (a : Nat) : s.draw.rxByte c a = s.rxByte c a := rfl
@[simp] theorem State.emit_rxByte (o : Output) (c : Bool) (a : Nat) : (s.emit o).rxByte c a = s.rxByte c a := rfl
@[simp] theorem State.event_rxByte (e : Event) (c : Bool) (a : Nat) : (s.event e).rxByte c a = s.rxByte c a := rfl

@[simp] theorem State.setJd_oldValues (j : Jd) (a : Nat) : (s.setJd j).oldValues a = s.oldValues a := rfl
@[simp] theorem State.setRx_oldValues (r : Rx) (a : Nat) : (s.setRx r).oldValues a = s.oldValues a := rfl
@[simp] theorem State.setTxp_oldValues (p : Txp) (a : Nat) : (s.setTxp p).oldValues a = s.oldValues a := rfl
@[simp] theorem State.setTxc_oldValues (t : Txc) (a : Nat) : (s.setTxc t).oldValues a = s.oldValues a := rfl
@[simp] theorem State.setIntr_oldValues (i : Intr) (a : Nat) : (s.setIntr i).oldValues a = s.oldValues a := rfl
@[simp] theorem State.setTxsrc_oldValues (m : Memory) (a : Nat) : (s.setTxsrc m).oldValues a = s.oldValues a := rfl
@[simp] theorem State.draw_oldValues (a : Nat) : s.draw.oldValues a = s.oldValues a := rfl
@[simp] theorem State.event_oldValues (e : Event) (a : Nat) : (s.event e).oldValues a = s.oldValues a := rfl
@[simp] theorem State.setRaced_nil_oldValues (a : Nat) : (s.setRaced []).oldValues a = [] := rfl

@[simp] theorem Rx.setFrameLen_frameLen_same (r : Rx) (b : Bool) (n : BitVec 24) :
    (r.setFrameLen b n).frameLen b = n := by cases b <;> rfl

@[simp] theorem Rx.setFrameLen_frameLen_not (r : Rx) (b : Bool) (n : BitVec 24) :
    (r.setFrameLen b n).frameLen (!b) = r.frameLen (!b) := by cases b <;> rfl

@[simp] theorem HuffTables.set_get_same (h : HuffTables) (id cls : Bool) (t : HuffTable) :
    (h.set id cls t).get id cls = some t := by cases id <;> cases cls <;> rfl

theorem HuffTables.set_get_of_ne (h : HuffTables) (id cls id' cls' : Bool) (t : HuffTable) (hne : (id', cls') ≠ (id, cls)) :
    (h.set id cls t).get id' cls' = h.get id' cls' := by
  cases id <;> cases cls <;> cases id' <;> cases cls' <;> first | rfl | simp at hne

end Sys2Proof.Machine
end

