-- ==== Sys2Proof/Laws/Memory.lean ====
section
/-! SUPPORT. The byte spaces: read after write, the canonical form, and the RX and camera writes byte by byte. -/

namespace Sys2Proof.Machine

theorem Memory.read_write (m : Memory) (a b : Nat) (v : Byte) (h : m.wf) :
    (m.write a v).read b = if b = a then some v else m.read b := by
  induction m with
  | nil => by_cases hb : a = b <;> simp [Memory.write, Memory.read, hb, eq_comm]
  | cons c m ih =>
    obtain ⟨k, w⟩ := c
    have hm : Memory.wf m := (List.pairwise_cons.mp h).2
    unfold Memory.write
    split
    · by_cases hb : b = a
      · simp [Memory.read, hb]
      · simp [Memory.read, hb, Ne.symm hb]
    · split
      · rename_i h1 h2
        subst h2
        by_cases hb : b = a
        · simp [Memory.read, hb]
        · simp [Memory.read, hb, Ne.symm hb]
      · rename_i h1 h2
        have ih' := ih hm
        by_cases hb : b = a
        · subst hb
          simp only [Memory.read, ih', if_true]
          rw [if_neg (fun hk => h2 hk.symm)]
        · simp only [Memory.read, ih', if_neg hb]

theorem Memory.write_addresses (m : Memory) (a : Nat) (v : Byte) :
    ∀ k ∈ (m.write a v).map Prod.fst, k = a ∨ k ∈ m.map Prod.fst := by
  induction m with
  | nil => simp [Memory.write]
  | cons c m ih =>
    obtain ⟨k', w⟩ := c
    intro k hk
    unfold Memory.write at hk
    split at hk
    · simpa using hk
    · split at hk
      · rename_i h1 h2
        subst h2
        simp only [List.map_cons, List.mem_cons] at hk ⊢
        tauto
      · simp only [List.map_cons, List.mem_cons] at hk ⊢
        rcases hk with hk | hk
        · exact .inr (.inl hk)
        · rcases ih k hk with h | h
          · exact .inl h
          · exact .inr (.inr h)

theorem Memory.write_wf (m : Memory) (a : Nat) (v : Byte) (h : m.wf) : (m.write a v).wf := by
  induction m with
  | nil => simp [Memory.write, Memory.wf]
  | cons c m ih =>
    obtain ⟨k, w⟩ := c
    have h' := List.pairwise_cons.mp h
    unfold Memory.write
    split
    · rename_i hlt
      refine List.pairwise_cons.mpr ⟨?_, h⟩
      intro x hx
      rcases List.mem_cons.mp hx with rfl | hx
      · exact hlt
      · exact Nat.lt_trans hlt (h'.1 x hx)
    · split
      · rename_i h1 h2
        subst h2
        exact h
      · rename_i h1 h2
        refine List.pairwise_cons.mpr ⟨?_, ih h'.2⟩
        intro x hx
        rcases Memory.write_addresses m a v x hx with rfl | hx
        · show k < x
          omega
        · exact h'.1 x hx

/-- What the RX write of one byte changes: the buffer, and the record of overwritten values (R69). -/
theorem rxWrite_eq (b : Bool) (a : Nat) (v : Byte) (s : State) :
    rxWrite b a v s =
      (s.setRaced (if s.jd.busy ∧ s.jd.srcIdx = b then (a, s.rxByte b a) :: s.raced else s.raced)).setRxbuf b
        ((s.rxbuf b).write a v) := by
  unfold rxWrite
  split <;> rename_i h <;> cases b <;> simp [State.setRxbuf, State.setRaced, State.rxbuf]

/-- The RX write of some bytes changes the buffer and the record of overwritten values only. -/
theorem rxWriteBytes_frame (b : Bool) (a : Nat) (vs : List Byte) (s : State) :
    rxWriteBytes b a vs s =
      (s.setRaced (rxWriteBytes b a vs s).raced).setRxbuf b ((rxWriteBytes b a vs s).rxbuf b) := by
  induction vs generalizing a s with
  | nil => cases b <;> rfl
  | cons v vs ih =>
    rw [rxWriteBytes, ih, rxWrite_eq]
    cases b <;> simp [State.setRxbuf, State.setRaced, State.rxbuf]

theorem rxWriteBytes_wf (b : Bool) (a : Nat) (vs : List Byte) (s : State) (h : (s.rxbuf b).wf) :
    ((rxWriteBytes b a vs s).rxbuf b).wf := by
  induction vs generalizing a s with
  | nil => exact h
  | cons v vs ih =>
    apply ih
    rw [rxWrite_eq, State.setRxbuf_rxbuf_same]
    exact Memory.write_wf _ _ _ h

theorem rxWriteBytes_rxbuf_other (b c : Bool) (a : Nat) (vs : List Byte) (s : State) (h : c ≠ b) :
    (rxWriteBytes b a vs s).rxbuf c = s.rxbuf c := by
  rw [rxWriteBytes_frame, State.setRxbuf_rxbuf, if_neg h, State.setRaced_rxbuf]

theorem rxWriteBytes_read (b : Bool) (a : Nat) (vs : List Byte) (s : State) (h : (s.rxbuf b).wf) (x : Nat) :
    ((rxWriteBytes b a vs s).rxbuf b).read x =
      if a ≤ x ∧ x < a + vs.length then vs[x - a]? else (s.rxbuf b).read x := by
  induction vs generalizing a s with
  | nil =>
    rw [if_neg (by simp only [List.length_nil]; omega)]
    rfl
  | cons v vs ih =>
    have hw : ((rxWrite b a v s).rxbuf b).wf := by
      rw [rxWrite_eq, State.setRxbuf_rxbuf_same]
      exact Memory.write_wf _ _ _ h
    rw [rxWriteBytes, ih (a + 1) (rxWrite b a v s) hw, rxWrite_eq, State.setRxbuf_rxbuf_same,
      Memory.read_write _ _ _ _ h]
    simp only [List.length_cons]
    by_cases h1 : x = a
    · subst h1
      rw [if_neg (by omega), if_pos rfl, if_pos (by omega), Nat.sub_self]
      rfl
    · by_cases h2 : a + 1 ≤ x ∧ x < a + 1 + vs.length
      · rw [if_pos h2, if_pos (by omega), show x - a = (x - (a + 1)) + 1 by omega, List.getElem?_cons_succ]
      · rw [if_neg h2, if_neg h1, if_neg (by omega)]

@[simp] theorem rxWriteBytes_epoch (b : Bool) (a : Nat) (vs : List Byte) (s : State) :
    (rxWriteBytes b a vs s).epoch = s.epoch := by rw [rxWriteBytes_frame]; simp

/-- Every byte after the RX write: the new bytes where they were written, every other byte as before (R236). -/
theorem rxWriteBytes_rxByte (b : Bool) (a : Nat) (vs : List Byte) (s : State) (h : (s.rxbuf b).wf) (c : Bool) (x : Nat) :
    (rxWriteBytes b a vs s).rxByte c x =
      if c = b ∧ a ≤ x ∧ x < a + vs.length then vs.getD (x - a) 0 else s.rxByte c x := by
  unfold State.rxByte
  by_cases hc : c = b
  · subst hc
    rw [rxWriteBytes_read c a vs s h, rxWriteBytes_epoch]
    by_cases hx : a ≤ x ∧ x < a + vs.length
    · rw [if_pos hx, if_pos ⟨rfl, hx⟩]
      have : x - a < vs.length := by omega
      simp [List.getElem?_eq_getElem this]
    · rw [if_neg hx, if_neg (fun h => hx h.2)]
  · rw [rxWriteBytes_rxbuf_other b c a vs s hc, rxWriteBytes_epoch, if_neg (fun h => hc h.1)]

/-- The camera's write changes TXSRC only. -/
theorem cameraWrite_frame (a : Nat) (vs : List Byte) (s : State) :
    cameraWrite a vs s = s.setTxsrc (cameraWrite a vs s).txsrc := by
  induction vs generalizing a s with
  | nil => rfl
  | cons v vs ih => rw [cameraWrite, ih]; rfl

theorem cameraWrite_wf (a : Nat) (vs : List Byte) (s : State) (h : s.txsrc.wf) : (cameraWrite a vs s).txsrc.wf := by
  induction vs generalizing a s with
  | nil => exact h
  | cons v vs ih => exact ih _ _ (Memory.write_wf _ _ _ h)

/-- The memories of a reset state are in canonical form. -/
theorem State.resetWith_memInv (p : Params) (epoch : Nat) : MemInv (State.resetWith p epoch) :=
  ⟨List.Pairwise.nil, List.Pairwise.nil, List.Pairwise.nil⟩

end Sys2Proof.Machine
end

