-- ==== Sys2Proof/Laws/Source.lean ====
section
/-! SUPPORT. The source reader of JD (R150 to R152): what a read can do, and what it does where the source is ready. -/

namespace Sys2Proof.Machine

variable {α β : Type}

@[simp] theorem Res.bind_ok (a : α) (s : State) (k : α → State → Res β) : (Res.ok a s).bind k = k a s := rfl
@[simp] theorem Res.bind_ends (r : ResultCode) (s : State) (k : α → State → Res β) :
    (Res.ends r s : Res α).bind k = .ends r s := rfl
@[simp] theorem Res.bind_fault (f : Fault) (k : α → State → Res β) : (Res.fault f : Res α).bind k = .fault f := rfl
@[simp] theorem Res.finish_ok (u : Unit) (s : State) : (Res.ok u s).finish = .next s := rfl
@[simp] theorem Res.finish_ends (r : ResultCode) (s : State) : (Res.ends r s : Res Unit).finish = .next (endCommand r s) := rfl
@[simp] theorem Res.finish_fault (f : Fault) : (Res.fault f : Res Unit).finish = .fault f := rfl

theorem Res.bind_assoc {γ : Type} (x : Res α) (k : α → State → Res β) (l : β → State → Res γ) :
    (x.bind k).bind l = x.bind fun a s => (k a s).bind l := by cases x <;> rfl

theorem Reads.refl (s : State) : Reads s s := ⟨rfl, Nat.le_refl _, Nat.le_max_left _ _⟩

theorem Reads.srcLen {s t : State} (h : Reads s t) : t.jd.srcLen = s.jd.srcLen := by rw [h.frame]

theorem Reads.params {s t : State} (h : Reads s t) : t.params = s.params := by rw [h.frame]

theorem Reads.trans {s t u : State} (h : Reads s t) (h' : Reads t u) : Reads s u := by
  refine ⟨?_, Nat.le_trans h.low h'.low, ?_⟩
  · rw [h'.frame, h.frame]
  · have h1 := h'.high
    have h2 := h.high
    rw [h.srcLen] at h1
    omega

theorem Res.ReadsOnly.bind {x : Res α} {k : α → State → Res β} {s : State} (h : x.ReadsOnly s)
    (hk : ∀ a t, x = .ok a t → (k a t).ReadsOnly t) : (x.bind k).ReadsOnly s := by
  cases x with
  | ok a t =>
    have hkt := hk a t rfl
    have ht : Reads s t := h
    simp only [Res.bind_ok]
    revert hkt
    cases k a t with
    | ok b u => exact fun hkt => ht.trans hkt
    | ends r u => exact fun hkt => ⟨hkt.1, ht.trans hkt.2⟩
    | fault f =>
      intro hkt
      have : _ ∧ _ := hkt
      rw [ht.params, ht.srcLen] at this
      exact this
  | ends r t => exact h
  | fault f => exact h

/-- What a JD read of one byte leaves: at most one free choice more. -/
theorem jdRead_state (a : Nat) (s : State) : (jdRead a s).2 = { s with draws := (jdRead a s).2.draws } := by
  unfold jdRead
  split <;> rfl

theorem nextByte_readsOnly (s : State) : (nextByte s).ReadsOnly s := by
  unfold nextByte
  split
  · rename_i h1
    have hs := jdRead_state s.jd.srcPos.toNat s
    split
    · have hp : (s.jd.srcPos + 1).toNat = s.jd.srcPos.toNat + 1 := by
        have := s.jd.srcLen.isLt
        bv_omega
      have hj : (jdRead s.jd.srcPos.toNat s).2.jd = s.jd := by rw [hs]
      refine ⟨?_, ?_, ?_⟩
      · rw [hs]; rfl
      · simp only [State.setJd_jd, hj]; omega
      · simp only [State.setJd_jd, hj]; omega
    · exact ⟨rfl, by omega⟩
  · exact Reads.refl s

theorem needByte_readsOnly (s : State) : (needByte s).ReadsOnly s := by
  refine (nextByte_readsOnly s).bind fun b t _ => ?_
  cases b with
  | some v => exact Reads.refl t
  | none => exact ⟨.inl rfl, Reads.refl t⟩

theorem readBytes_readsOnly (n : Nat) (s : State) : (readBytes n s).ReadsOnly s := by
  induction n generalizing s with
  | zero => exact Reads.refl s
  | succ n ih =>
    refine (needByte_readsOnly s).bind fun b t _ => (ih t).bind fun bs u _ => ?_
    exact Reads.refl u

theorem skipBytes_readsOnly (n : Nat) (s : State) : (skipBytes n s).ReadsOnly s := by
  induction n generalizing s with
  | zero => exact Reads.refl s
  | succ n ih => exact (needByte_readsOnly s).bind fun _ t _ => ih t

theorem fetchData_readsOnly (s : State) : (fetchData s).ReadsOnly s := by
  refine (needByte_readsOnly s).bind fun b t _ => ?_
  split
  · refine (needByte_readsOnly t).bind fun c u _ => ?_
    split
    · exact Reads.refl u
    · exact ⟨.inr rfl, Reads.refl u⟩
  · exact Reads.refl t

/-- A raise inside BITEXT leaves `cur` and `msk` as they are (R155). -/
theorem bitextLoop_readsOnly (n : Nat) (v : Half) (m c : Byte) (s : State) : (bitextLoop n v m c s).ReadsOnly s := by
  induction n generalizing v m c s with
  | zero => exact Reads.refl s
  | succ n ih =>
    unfold bitextLoop
    split
    · exact (fetchData_readsOnly s).bind fun b t _ => ih _ _ _ t
    · exact ih _ _ _ s

/-- BITEXT goes on with `cur` and `msk` written after some source reads, or stops inside them (R152). -/
theorem bitext_cases (n : Nat) (s : State) :
    (∃ v m c t, bitext n s = .ok v (t.setJd { t.jd with msk := m, cur := c }) ∧ Reads s t) ∨
      (∃ r t, bitext n s = .ends r t ∧ (r = .inp ∨ r = .fmt1) ∧ Reads s t) ∨
      (bitext n s = .fault .rxbufAddress ∧ s.params.rxBufSize < s.jd.srcLen.toNat) := by
  have h := bitextLoop_readsOnly n 0 s.jd.msk s.jd.cur s
  unfold bitext
  revert h
  cases bitextLoop n 0 s.jd.msk s.jd.cur s with
  | ok r t => exact fun h => .inl ⟨_, _, _, t, rfl, h⟩
  | ends r t => exact fun h => .inr (.inl ⟨r, t, rfl, h.1, h.2⟩)
  | fault f =>
    intro h
    obtain ⟨rfl, hlt⟩ := h
    exact .inr (.inr ⟨rfl, hlt⟩)

/-! The reader where the source is ready. -/

theorem State.advance_zero (s : State) : s.advance 0 = s := by
  show s.setJd { s.jd with srcPos := s.jd.srcPos + 0 } = s
  simp [State.setJd]

theorem State.advance_advance (s : State) (m n : Nat) : (s.advance m).advance n = s.advance (m + n) := by
  simp [State.advance, State.setJd, BitVec.add_assoc, ← BitVec.ofNat_add]

theorem SourceReady.mono {s : State} {m n : Nat} (h : SourceReady s n) (hm : m ≤ n) : SourceReady s m :=
  ⟨by have := h.1; omega, h.2.1, fun k hk => h.2.2 k (by omega)⟩

theorem State.advance_srcPos {s : State} {m n : Nat} (h : SourceReady s n) (hm : m ≤ n) :
    (s.advance m).jd.srcPos.toNat = s.jd.srcPos.toNat + m := by
  have h1 := h.1
  have h2 := s.jd.srcLen.isLt
  show (s.jd.srcPos + BitVec.ofNat 24 m).toNat = _
  rw [BitVec.toNat_add, BitVec.toNat_ofNat]
  omega

theorem SourceReady.advance {s : State} {m n : Nat} (h : SourceReady s (m + n)) : SourceReady (s.advance m) n := by
  have hp := State.advance_srcPos h (Nat.le_add_right m n)
  refine ⟨?_, h.2.1, fun k hk => ?_⟩
  · rw [hp]
    have := h.1
    exact (by omega : s.jd.srcPos.toNat + m + n ≤ s.jd.srcLen.toNat)
  · rw [hp]
    have := h.2.2 (m + k) (by omega)
    rw [← Nat.add_assoc] at this
    exact this

theorem nextByte_ready {s : State} (h : SourceReady s 1) :
    nextByte s = .ok (some (s.rxByte s.jd.srcIdx s.jd.srcPos.toNat)) (s.advance 1) := by
  have h1 := h.1
  have h2 := h.2.1
  have h3 := h.2.2 0 (by omega)
  rw [Nat.add_zero] at h3
  unfold nextByte
  rw [if_pos (by omega), if_pos (by omega)]
  simp only [jdRead, h3]
  rfl

theorem needByte_ready {s : State} (h : SourceReady s 1) :
    needByte s = .ok (s.rxByte s.jd.srcIdx s.jd.srcPos.toNat) (s.advance 1) := by
  rw [needByte, nextByte_ready h]
  rfl

theorem sourceBytes_succ {s : State} {n : Nat} (h : SourceReady s (n + 1)) :
    sourceBytes s (n + 1) = s.rxByte s.jd.srcIdx s.jd.srcPos.toNat :: sourceBytes (s.advance 1) n := by
  have hp := State.advance_srcPos h (by omega : 1 ≤ n + 1)
  unfold sourceBytes
  rw [List.range_succ_eq_map, List.map_cons, List.map_map, hp]
  congr 1
  apply List.map_congr_left
  intro k _
  show s.rxByte _ (s.jd.srcPos.toNat + (k + 1)) = s.rxByte _ (s.jd.srcPos.toNat + 1 + k)
  rw [Nat.add_assoc, Nat.add_comm 1 k]
  rfl

theorem readBytes_ready {s : State} {n : Nat} (h : SourceReady s n) :
    readBytes n s = .ok (sourceBytes s n) (s.advance n) := by
  induction n generalizing s with
  | zero => rw [State.advance_zero]; rfl
  | succ n ih =>
    have h1 : SourceReady (s.advance 1) n := SourceReady.advance (by rw [Nat.add_comm]; exact h)
    rw [readBytes, needByte_ready (h.mono (by omega)), Res.bind_ok, ih h1, Res.bind_ok, sourceBytes_succ h,
      State.advance_advance, Nat.add_comm 1 n]

theorem skipBytes_ready {s : State} {n : Nat} (h : SourceReady s n) : skipBytes n s = .ok () (s.advance n) := by
  induction n generalizing s with
  | zero => rw [State.advance_zero]; rfl
  | succ n ih =>
    have h1 : SourceReady (s.advance 1) n := SourceReady.advance (by rw [Nat.add_comm]; exact h)
    rw [skipBytes, needByte_ready (h.mono (by omega)), Res.bind_ok, ih h1, State.advance_advance, Nat.add_comm 1 n]

@[simp] theorem sourceBytes_length (s : State) (n : Nat) : (sourceBytes s n).length = n := by
  simp [sourceBytes]

/-! The table arena. -/

/-- An allocation that succeeds changes USED only, and USED stays within POOL_SIZE (R62). -/
theorem alloc_some {n : Nat} {s t : State} (h : alloc n s = some t) :
    t = s.setJd { s.jd with used := t.jd.used } ∧
      (s.jd.used.toNat ≤ s.params.poolSize.toNat → t.jd.used.toNat = s.jd.used.toNat + (n + 3) / 4 * 4 ∧
        t.jd.used.toNat ≤ s.params.poolSize.toNat) := by
  unfold alloc at h
  dsimp only at h
  split at h
  · rename_i hle
    injection h with h
    subst h
    refine ⟨rfl, fun hu => ?_⟩
    have := s.params.poolSize.isLt
    simp only [State.setJd_jd, BitVec.toNat_ofNat]
    omega
  · exact absurd h (by simp)

end Sys2Proof.Machine
end

