-- ==== Sys2Proof/Laws/Bits.lean ====
section
/-! SUPPORT. The entropy data bit by bit: the bits of a byte under a mask (R30, R152), and what FetchData gives where the source
bytes un-stuff (R94, R151). -/

namespace Sys2Proof.Machine

/-- The nine masks (R30). -/
theorem ZeroOrOneHot.cases : ∀ m : Byte, ZeroOrOneHot m →
    m = 0 ∨ m = 1 ∨ m = 2 ∨ m = 4 ∨ m = 8 ∨ m = 16 ∨ m = 32 ∨ m = 64 ∨ m = 128 := by
  unfold ZeroOrOneHot
  decide

theorem ZeroOrOneHot.shift : ∀ m : Byte, ZeroOrOneHot m → ZeroOrOneHot (m >>> 1) := by
  unfold ZeroOrOneHot
  decide

@[simp] theorem leftBits_zero (c : Byte) : leftBits 0 c = [] := by
  revert c
  decide

/-- The next bit is the one the mask selects (R152). -/
theorem leftBits_step (m c : Byte) (h : ZeroOrOneHot m) (h0 : m ≠ 0) :
    leftBits m c = decide (c &&& m ≠ 0) :: leftBits (m >>> 1) c := by
  rcases ZeroOrOneHot.cases m h with rfl | rfl | rfl | rfl | rfl | rfl | rfl | rfl | rfl
  · exact absurd rfl h0
  all_goals
    revert c
    decide

/-- The first bit of a byte is its bit 7 (R94). -/
theorem byteBits_step (c : Byte) : byteBits c = decide (c &&& 0x80 ≠ 0) :: leftBits 0x40 c := by
  revert c
  decide

/-- The first data byte of a source is its first byte, or FF for a pair FF 00 (R151). -/
theorem unstuff_cons {b : Byte} {data src : List Byte} (h : unstuff src = some (b :: data)) :
    (∃ r, src = b :: r ∧ b ≠ 0xFF ∧ unstuff r = some data) ∨
      ∃ r, src = 0xFF :: 0 :: r ∧ b = 0xFF ∧ unstuff r = some data := by
  match src with
  | [] => simp [unstuff] at h
  | [x] =>
    unfold unstuff at h
    split at h
    · simp at h
    · simp only [Option.some.injEq, List.cons.injEq, List.nil_eq] at h
      obtain ⟨rfl, rfl⟩ := h
      exact .inl ⟨[], rfl, by assumption, by simp [unstuff]⟩
  | x :: y :: r =>
    unfold unstuff at h
    split at h
    · rename_i hx
      split at h
      · rename_i hy
        simp only [Option.map_eq_some_iff, List.cons.injEq] at h
        obtain ⟨e, h1, h2, h3⟩ := h
        exact .inr ⟨r, by rw [hx, hy], h2.symm, by rw [h1, h3]⟩
      · simp at h
    · simp only [Option.map_eq_some_iff, List.cons.injEq] at h
      obtain ⟨e, h1, h2, h3⟩ := h
      subst h2
      exact .inl ⟨y :: r, rfl, by assumption, by rw [h1, h3]⟩

/-- FetchData gives the first data byte, and leaves the rest of the source ready (R151). -/
theorem fetchData_ready {s : State} {k : Nat} {b : Byte} {data : List Byte} (h : SourceReady s k)
    (hu : unstuff (sourceBytes s k) = some (b :: data)) :
    ∃ j ≤ k, fetchData s = .ok b (s.advance j) ∧ SourceReady (s.advance j) (k - j) ∧
      unstuff (sourceBytes (s.advance j) (k - j)) = some data := by
  cases k with
  | zero => simp [sourceBytes, unstuff] at hu
  | succ k =>
    have e := sourceBytes_succ h
    have hr : SourceReady (s.advance 1) k := SourceReady.advance (by rwa [Nat.add_comm])
    rcases unstuff_cons hu with ⟨r, h1, h2, h3⟩ | ⟨r, h1, h2, h3⟩
    · rw [e] at h1
      injection h1 with h1 h1'
      refine ⟨1, by omega, ?_, hr, by rwa [← h1'] at h3⟩
      rw [fetchData, needByte_ready (h.mono (by omega)), Res.bind_ok, h1, if_neg h2]
    · rw [e] at h1
      injection h1 with h1 h1'
      cases k with
      | zero => simp [sourceBytes] at h1'
      | succ k =>
        have hr' : SourceReady ((s.advance 1).advance 1) k := SourceReady.advance (by rwa [Nat.add_comm])
        rw [sourceBytes_succ hr] at h1'
        injection h1' with h4 h5
        rw [State.advance_advance] at hr' h5
        refine ⟨2, by omega, ?_, hr', by rwa [← h5] at h3⟩
        rw [fetchData, needByte_ready (h.mono (by omega)), Res.bind_ok, h1, if_pos rfl, needByte_ready (hr.mono (by omega)),
          Res.bind_ok, h4, if_pos rfl, State.advance_advance, h2]

end Sys2Proof.Machine
end

