-- ==== Sys2Proof/Laws/Ops.lean ====
section
/-! SUPPORT. The shared operations field by field: events, the end of a command, drops, the credit, sending, and an update of
the JD unit. -/

namespace Sys2Proof.Machine

variable (s : State)

/-- An event alone sets its bit (R42). -/
@[simp] theorem intUpdate_no_clear (status set : Byte) : intUpdate status 0#8 set = status ||| set := by
  have h : ~~~(0#8) = BitVec.allOnes 8 := rfl
  rw [intUpdate, h, BitVec.and_allOnes]

/-! The end of a command (R305): only the JD unit, the interrupt bits and the record of races change. -/

@[simp] theorem endCommand_params (r : ResultCode) : (endCommand r s).params = s.params := rfl
@[simp] theorem endCommand_rx (r : ResultCode) : (endCommand r s).rx = s.rx := rfl
@[simp] theorem endCommand_txp (r : ResultCode) : (endCommand r s).txp = s.txp := rfl
@[simp] theorem endCommand_txc (r : ResultCode) : (endCommand r s).txc = s.txc := rfl
@[simp] theorem endCommand_rxbuf0 (r : ResultCode) : (endCommand r s).rxbuf0 = s.rxbuf0 := rfl
@[simp] theorem endCommand_rxbuf1 (r : ResultCode) : (endCommand r s).rxbuf1 = s.rxbuf1 := rfl
@[simp] theorem endCommand_txsrc (r : ResultCode) : (endCommand r s).txsrc = s.txsrc := rfl
@[simp] theorem endCommand_draws (r : ResultCode) : (endCommand r s).draws = s.draws := rfl
@[simp] theorem endCommand_epoch (r : ResultCode) : (endCommand r s).epoch = s.epoch := rfl
@[simp] theorem endCommand_inputs (r : ResultCode) : (endCommand r s).inputs = s.inputs := rfl
@[simp] theorem endCommand_schedule (r : ResultCode) : (endCommand r s).schedule = s.schedule := rfl
@[simp] theorem endCommand_out (r : ResultCode) : (endCommand r s).out = s.out := rfl
@[simp] theorem endCommand_mode (r : ResultCode) : (endCommand r s).jd.mode = .idle := rfl
@[simp] theorem endCommand_busy (r : ResultCode) : (endCommand r s).jd.busy = false := rfl
@[simp] theorem endCommand_done (r : ResultCode) : (endCommand r s).jd.done = true := rfl
@[simp] theorem endCommand_phase (r : ResultCode) : (endCommand r s).jd.phase = 0 := rfl
@[simp] theorem endCommand_result (r : ResultCode) : (endCommand r s).jd.result = r := rfl

/-! A dropped datagram (R310): only the drop count, BOUNDS and RX_DROP change. -/

@[simp] theorem dropDatagram_params (r : DropReason) : (dropDatagram r s).params = s.params := rfl
@[simp] theorem dropDatagram_jd (r : DropReason) : (dropDatagram r s).jd = s.jd := rfl
@[simp] theorem dropDatagram_txp (r : DropReason) : (dropDatagram r s).txp = s.txp := rfl
@[simp] theorem dropDatagram_txc (r : DropReason) : (dropDatagram r s).txc = s.txc := rfl
@[simp] theorem dropDatagram_rxbuf0 (r : DropReason) : (dropDatagram r s).rxbuf0 = s.rxbuf0 := rfl
@[simp] theorem dropDatagram_rxbuf1 (r : DropReason) : (dropDatagram r s).rxbuf1 = s.rxbuf1 := rfl
@[simp] theorem dropDatagram_txsrc (r : DropReason) : (dropDatagram r s).txsrc = s.txsrc := rfl
@[simp] theorem dropDatagram_epoch (r : DropReason) : (dropDatagram r s).epoch = s.epoch := rfl
@[simp] theorem dropDatagram_out (r : DropReason) : (dropDatagram r s).out = s.out := rfl
@[simp] theorem dropDatagram_frameLen (r : DropReason) (b : Bool) :
    (dropDatagram r s).rx.frameLen b = s.rx.frameLen b := rfl

/-- A credit release writes the credit, CAPTURE_WAIT and CAPTURE_GO only (R265). -/
theorem release_frame : release s = { s with
    txc := { s.txc with credit := (release s).txc.credit, captureWait := false }
    intr := { s.intr with status := (release s).intr.status } } := by
  unfold release
  dsimp only
  split
  · rfl
  · rename_i h
    rw [Bool.not_eq_true] at h
    simp only [State.setTxc, ← h]

/-- Sending a datagram writes `tx_busy`, `inflight` and RADIO_TX only (R260). -/
theorem sendDatagram_eq (d : List Byte) : sendDatagram d s = { s with txp := ⟨true, d⟩, out := .radioTx d :: s.out } := rfl

/-- The state a part of a JD command that changes only the JD unit leaves. -/
theorem State.setJd_setJd (j k : Jd) : (s.setJd j).setJd k = s.setJd k := rfl

@[simp] theorem State.setJd_self : s.setJd s.jd = s := rfl

end Sys2Proof.Machine
end

