-- ==== Sys2Proof/Laws/PerInstr.lean ====
section
/-! SUPPORT. The per-instruction family: how many bytes an instruction's encoding has at its port (R80, R83, R84, R88, R94 to R96,
R99, R100). -/

namespace Sys2Proof.Laws

theorem EncodeLength.of_packet (t : Byte) (p : Packet) (h : p.wf = true) :
    4 ≤ (encodePacket t p).length ∧ (encodePacket t p).length ≤ 250 := by
  unfold Packet.wf Config.hdrSize Config.mtu at h
  simp only [decide_eq_true_eq] at h
  simp only [encodePacket, List.length_cons]
  omega

/-- A datagram has 4 to 250 bytes; a command word 4; a marker with its Lseg 4; SOI, a restart marker and an entropy pair 2; a
Huffman symbol 1. -/
def EncodeLength.Statement (i : Instr) : Prop :=
  WellFormed i →
    match portOf i with
    | .radio => 4 ≤ (encode i).length ∧ (encode i).length ≤ 250
    | .reg _ => (encode i).length = 4
    | .header => (encode i).length = 4
    | .soi => (encode i).length = 2
    | .restart => (encode i).length = 2
    | .entropy => (encode i).length = 2
    | .dcSymbol => (encode i).length = 1
    | .acSymbol => (encode i).length = 1

theorem EncodeLength.pktAck (p : Packet) : Statement (.pktAck p) :=
  fun h => of_packet 0x00 p h

theorem EncodeLength.pktNak (p : Packet) : Statement (.pktNak p) :=
  fun h => of_packet 0x01 p h

theorem EncodeLength.pktInitialHeaderData (p : Packet) : Statement (.pktInitialHeaderData p) :=
  fun h => of_packet 0x02 p h

theorem EncodeLength.pktFrameData (p : Packet) : Statement (.pktFrameData p) :=
  fun h => of_packet 0x03 p h

theorem EncodeLength.pktTelemetry (p : Packet) : Statement (.pktTelemetry p) :=
  fun h => of_packet 0x04 p h

theorem EncodeLength.pktPing (p : Packet) : Statement (.pktPing p) :=
  fun h => of_packet 0x05 p h

theorem EncodeLength.pktSwitchChannel (p : Packet) : Statement (.pktSwitchChannel p) :=
  fun h => of_packet 0x06 p h

theorem EncodeLength.pktTxPowerUpdate (p : Packet) : Statement (.pktTxPowerUpdate p) :=
  fun h => of_packet 0x07 p h

theorem EncodeLength.pktEnableLed (p : Packet) : Statement (.pktEnableLed p) :=
  fun h => of_packet 0x08 p h

theorem EncodeLength.pktUnknown (type : Byte) (p : Packet) : Statement (.pktUnknown type p) :=
  fun h => of_packet type p (Bool.and_eq_true_iff.mp h).2

theorem EncodeLength.jdNop (buf : Bool) : Statement (.jdNop buf) :=
  fun _ => rfl

theorem EncodeLength.jdPrepare (buf : Bool) : Statement (.jdPrepare buf) :=
  fun _ => rfl

theorem EncodeLength.jdDecomp (buf : Bool) : Statement (.jdDecomp buf) :=
  fun _ => rfl

theorem EncodeLength.jdReserved (buf : Bool) : Statement (.jdReserved buf) :=
  fun _ => rfl

theorem EncodeLength.rxTake (clr : Bool) : Statement (.rxTake clr) :=
  fun _ => rfl

theorem EncodeLength.rxClrSticky : Statement .rxClrSticky :=
  fun _ => rfl

theorem EncodeLength.txcCaptureReq : Statement .txcCaptureReq :=
  fun _ => rfl

theorem EncodeLength.txcFragStart (frame : Bool) : Statement (.txcFragStart frame) :=
  fun _ => rfl

theorem EncodeLength.intW1c (clear : Byte) : Statement (.intW1c clear) :=
  fun _ => rfl

theorem EncodeLength.mkSoi : Statement .mkSoi :=
  fun _ => rfl

theorem EncodeLength.mkSof0 (lseg : Half) : Statement (.mkSof0 lseg) :=
  fun _ => rfl

theorem EncodeLength.mkDht (lseg : Half) : Statement (.mkDht lseg) :=
  fun _ => rfl

theorem EncodeLength.mkDqt (lseg : Half) : Statement (.mkDqt lseg) :=
  fun _ => rfl

theorem EncodeLength.mkDri (lseg : Half) : Statement (.mkDri lseg) :=
  fun _ => rfl

theorem EncodeLength.mkSos (lseg : Half) : Statement (.mkSos lseg) :=
  fun _ => rfl

theorem EncodeLength.mkSof1Reject (lseg : Half) : Statement (.mkSof1Reject lseg) :=
  fun _ => rfl

theorem EncodeLength.mkSof2Reject (lseg : Half) : Statement (.mkSof2Reject lseg) :=
  fun _ => rfl

theorem EncodeLength.mkSof3Reject (lseg : Half) : Statement (.mkSof3Reject lseg) :=
  fun _ => rfl

theorem EncodeLength.mkSof5Reject (lseg : Half) : Statement (.mkSof5Reject lseg) :=
  fun _ => rfl

theorem EncodeLength.mkSof6Reject (lseg : Half) : Statement (.mkSof6Reject lseg) :=
  fun _ => rfl

theorem EncodeLength.mkSof7Reject (lseg : Half) : Statement (.mkSof7Reject lseg) :=
  fun _ => rfl

theorem EncodeLength.mkSof9Reject (lseg : Half) : Statement (.mkSof9Reject lseg) :=
  fun _ => rfl

theorem EncodeLength.mkSof10Reject (lseg : Half) : Statement (.mkSof10Reject lseg) :=
  fun _ => rfl

theorem EncodeLength.mkSof11Reject (lseg : Half) : Statement (.mkSof11Reject lseg) :=
  fun _ => rfl

theorem EncodeLength.mkSof13Reject (lseg : Half) : Statement (.mkSof13Reject lseg) :=
  fun _ => rfl

theorem EncodeLength.mkSof14Reject (lseg : Half) : Statement (.mkSof14Reject lseg) :=
  fun _ => rfl

theorem EncodeLength.mkSof15Reject (lseg : Half) : Statement (.mkSof15Reject lseg) :=
  fun _ => rfl

theorem EncodeLength.mkEoiReject (lseg : Half) : Statement (.mkEoiReject lseg) :=
  fun _ => rfl

theorem EncodeLength.mkRstn (n : BitVec 3) : Statement (.mkRstn n) :=
  fun _ => rfl

theorem EncodeLength.mkOther (c : Byte) (lseg : Half) : Statement (.mkOther c lseg) :=
  fun _ => rfl

theorem EncodeLength.edStuffedFF : Statement .edStuffedFF :=
  fun _ => rfl

theorem EncodeLength.edMarkerInData (xx : Byte) : Statement (.edMarkerInData xx) :=
  fun _ => rfl

theorem EncodeLength.dcClass0 : Statement .dcClass0 :=
  fun _ => rfl

theorem EncodeLength.dcClass (ssss : BitVec 4) : Statement (.dcClass ssss) :=
  fun _ => rfl

theorem EncodeLength.acEob : Statement .acEob :=
  fun _ => rfl

theorem EncodeLength.acZrl : Statement .acZrl :=
  fun _ => rfl

theorem EncodeLength.acRunSkip (rrrr : BitVec 4) : Statement (.acRunSkip rrrr) :=
  fun _ => rfl

theorem EncodeLength.acRunSize (rrrr ssss : BitVec 4) : Statement (.acRunSize rrrr ssss) :=
  fun _ => rfl

theorem EncodeLength.acBadClass (rrrr ssss : BitVec 4) : Statement (.acBadClass rrrr ssss) :=
  fun _ => rfl

end Sys2Proof.Laws
end

