-- ==== Sys2Proof/Laws/Segments.lean ====
section
/-! SUPPORT. The operations of the marker segments and of the block decoder: the segment load (R123, R124), the table arena
(R62), the tables of DHT and DQT (R127, R129), one component of SOS (R130), the de-quantizer of a block (R170) and the run of an AC symbol (R175). -/

namespace Sys2Proof.Machine

/-- The checks of Lseg, and then the segment's own rule on the loaded bytes (R123, R124). -/
theorem withBody_ready {lseg : Half} {s : State} {len : Nat} (k : List Byte → State → Res Unit)
    (hl : lseg.toNat = len + 2) (h0 : 0 < len) (hm : len ≤ 512) (h : SourceReady s len) :
    withBody lseg k s = k (sourceBytes s len) (s.advance len) := by
  have e : lseg.toNat - 2 = len := by omega
  unfold withBody withSegment
  rw [if_neg (by omega)]
  simp only [e]
  rw [if_neg (by unfold Config.inbufSize; omega), readBytes_ready h, Res.bind_ok]

/-- A segment load ends the command, meets an address that does not exist, or runs the segment's rule after `len` reads. -/
theorem withBody_cases (lseg : Half) (k : List Byte → State → Res Unit) (s : State) :
    (∃ r ∈ [ResultCode.fmt1, .mem2, .inp], ∃ t, withBody lseg k s = .ends r t ∧ Reads s t) ∨
      (withBody lseg k s = .fault .rxbufAddress ∧ s.params.rxBufSize < s.jd.srcLen.toNat) ∨
      ∃ seg t, withBody lseg k s = k seg t ∧ Reads s t := by
  unfold withBody withSegment
  split
  · exact .inl ⟨.fmt1, by simp, s, rfl, Reads.refl s⟩
  · dsimp only
    split
    · exact .inl ⟨.mem2, by simp, s, rfl, Reads.refl s⟩
    · have h := readBytes_readsOnly (lseg.toNat - 2) s
      revert h
      cases readBytes (lseg.toNat - 2) s with
      | ok seg t => exact fun h => .inr (.inr ⟨seg, t, rfl, h⟩)
      | ends r t =>
        intro h
        obtain ⟨hr, ht⟩ := h
        exact .inl ⟨r, by rcases hr with rfl | rfl <;> simp, t, rfl, ht⟩
      | fault f =>
        intro h
        obtain ⟨rfl, hlt⟩ := h
        exact .inr (.inl ⟨rfl, hlt⟩)

/-- An allocation that the arena can hold (R62). -/
theorem allocOrMem1_fits {n : Nat} {s : State} (h : s.jd.used.toNat + up4 n ≤ s.params.poolSize.toNat) :
    allocOrMem1 n s = .ok () (s.setJd { s.jd with used := BitVec.ofNat 16 (s.jd.used.toNat + up4 n) }) := by
  unfold up4 at h
  unfold allocOrMem1 alloc
  dsimp only
  rw [if_pos (by omega)]
  rfl

/-- An allocation that the arena cannot hold raises MEM1 (R62, R127, R129). -/
theorem allocOrMem1_exhausted {n : Nat} {s : State} (h : s.params.poolSize.toNat - s.jd.used.toNat < up4 n) :
    allocOrMem1 n s = .ends .mem1 s := by
  unfold up4 at h
  unfold allocOrMem1 alloc
  dsimp only
  rw [if_neg (by omega)]

/-- One round of the loop over the tables of a segment (R127, R129). -/
theorem tableLoop_cons (table : List Byte → State → Res (List Byte)) (n : Nat) {seg : List Byte} (s : State) (h : seg ≠ []) :
    tableLoop table (n + 1) seg s = (table seg s).bind fun rest s => tableLoop table n rest s := by
  rw [tableLoop, if_neg h]

/-- The class and id byte of a table passes its check and gives back the class and the id (R90, R127). -/
theorem dhtByte_fields : ∀ id cls : Bool,
    let d : Byte := (0 : BitVec 3) ++ BitVec.ofBool cls ++ (0 : BitVec 3) ++ BitVec.ofBool id
    d &&& 0xEE = 0 ∧ d.getLsbD 0 = id ∧ d.getLsbD 4 = cls ∧ (d &&& 0x10 = 0 → cls = false) := by decide

/-- A legal Huffman table that the arena can hold stands in its place, and the bytes after it are left (R127). -/
theorem dhtTable_legal {t : (Bool × Bool) × List Byte × List Byte} (ht : DhtLegal t) (rest : List Byte) {s : State}
    (h : s.jd.used.toNat + huffArena t.2.1 ≤ s.params.poolSize.toNat) :
    dhtTable (dhtBytes t ++ rest) s = .ok rest (s.setJd { s.jd with
      used := BitVec.ofNat 16 (s.jd.used.toNat + huffArena t.2.1)
      huff := s.jd.huff.set t.1.1 t.1.2 ⟨t.2.1, canonicalCodes t.2.1, t.2.2⟩ }) := by
  obtain ⟨⟨id, cls⟩, bits, vals⟩ := t
  obtain ⟨h1, h2, h3⟩ := ht
  dsimp only at h1 h2 h3 h ⊢
  have hp := s.params.poolSize.isLt
  have u16 : up4 16 = 16 := rfl
  have hb := dhtByte_fields id cls
  unfold dhtBytes
  dsimp only at hb ⊢
  generalize ((0 : BitVec 3) ++ BitVec.ofBool cls ++ (0 : BitVec 3) ++ BitVec.ofBool id : Byte) = d at *
  obtain ⟨b1, b2, b3, b4⟩ := hb
  unfold huffArena at h ⊢
  have hl : ((d :: (bits ++ vals)) ++ rest).length = 17 + vals.length + rest.length := by
    simp only [List.cons_append, List.length_cons, List.length_append, h1]; omega
  have t1 : (((d :: (bits ++ vals)) ++ rest).drop 1).take 16 = bits := by simp [h1]
  have t2 : ((d :: (bits ++ vals)) ++ rest).drop 17 = vals ++ rest := by simp [h1]
  have t3 : ((d :: (bits ++ vals)) ++ rest).getD 0 0 = d := rfl
  have t4 : (vals ++ rest).take (codeCount bits) = vals := by rw [← h2, List.take_left]
  have t5 : (vals ++ rest).drop (codeCount bits) = rest := by rw [← h2, List.drop_left]
  have m1 : (s.jd.used.toNat + 16) % 2 ^ 16 = s.jd.used.toNat + 16 := Nat.mod_eq_of_lt (by omega)
  have m2 : (s.jd.used.toNat + 16 + up4 (2 * codeCount bits)) % 2 ^ 16 = s.jd.used.toNat + 16 + up4 (2 * codeCount bits) :=
    Nat.mod_eq_of_lt (by omega)
  unfold dhtTable
  simp only [hl, t1, t2, t3]
  rw [if_neg (by omega), if_neg (by simpa using b1), allocOrMem1_fits (by omega), u16, Res.bind_ok,
    allocOrMem1_fits (by simp; omega), Res.bind_ok, if_neg (by simp [h2]),
    allocOrMem1_fits (by simp; omega), Res.bind_ok, t4, t5, if_neg]
  · simp only [State.setJd_jd, BitVec.toNat_ofNat, m1, m2, b2, b3, State.setJd_setJd, ← Nat.add_assoc]
  · rintro ⟨hd, ha⟩
    obtain ⟨v, hv, hv'⟩ := List.any_eq_true.mp ha
    have := h3 (b4 hd) v hv
    simp only [decide_eq_true_eq] at hv'
    omega

/-- A quantization table that the arena can hold stands in its place, and the bytes after it are left (R129). -/
theorem dqtTable_legal {t : BitVec 2 × List Byte} (ht : t.2.length = 64) (rest : List Byte) {s : State}
    (h : s.jd.used.toNat + 256 ≤ s.params.poolSize.toNat) :
    dqtTable ((t.1.setWidth 8 :: t.2) ++ rest) s = .ok rest (s.setJd { s.jd with
      used := BitVec.ofNat 16 (s.jd.used.toNat + 256)
      quant := s.jd.quant.set t.1 (quantTable t.2) }) := by
  have e : ∀ i : BitVec 2, (i.setWidth 8 &&& 0xF0 : Byte) = 0 ∧ ¬ 3 < (i.setWidth 8 &&& 0x0F : Byte).toNat ∧
      (i.setWidth 8 : Byte).extractLsb' 0 2 = i := by decide
  have u : up4 256 = 256 := rfl
  unfold dqtTable
  simp only [List.cons_append, List.length_cons, List.length_append, ht, List.getD_cons_zero]
  rw [if_neg (by omega), if_neg (not_not.mpr (e t.1).1), if_neg (e t.1).2.1, allocOrMem1_fits (by omega), (e t.1).2.2, u]
  simp [List.drop_append, ht, State.setJd_setJd]

/-- What one component of SOS answers (R130). -/
theorem scanComponent_cases (cmp : Nat) (sel : Byte) (j : Jd) :
    (scanComponent cmp sel j = some .fmt3 ∧ sel ≠ 0x00 ∧ sel ≠ 0x11) ∨
      (scanComponent cmp sel j = some .fmt1 ∧ (sel = 0x00 ∨ sel = 0x11)) ∨
      (scanComponent cmp sel j = none ∧ (sel = 0x00 ∨ sel = 0x11) ∧
        (j.huff.get (decide (cmp ≠ 0)) false).isSome = true ∧ (j.huff.get (decide (cmp ≠ 0)) true).isSome = true ∧
        (j.quant.get (j.qtid cmp)).isSome = true) := by
  unfold scanComponent
  dsimp only
  split
  · rename_i h
    exact .inl ⟨rfl, h⟩
  · rename_i h
    have hs : sel = 0x00 ∨ sel = 0x11 := by
      by_contra hn
      rw [not_or] at hn
      exact h hn
    split
    · exact .inr (.inl ⟨rfl, hs⟩)
    · rename_i h2
      rw [not_not] at h2
      split
      · exact .inr (.inl ⟨rfl, hs⟩)
      · rename_i h3
        rw [not_not] at h3
        exact .inr (.inr ⟨rfl, hs, h2.1, h2.2, h3⟩)

/-- The de-quantizer of a block, where its table is present (R170). -/
theorem blockQuant_some {s : State} {q : QuantTable} (h : s.jd.quant.get (s.jd.qtid (s.jd.cmp s.jd.blk)) = some q) :
    blockQuant s = .ok q s := by
  unfold blockQuant Jd.blockCmp
  rw [h]

/-- The run of an AC symbol raises FMT1, or moves on and leaves the rest (R175). -/
theorem acRun_cases (rrrr : BitVec 4) (s : State) :
    (acRun rrrr s = .ends .fmt1 s ∧ rrrr ≠ 0 ∧ 64 ≤ s.jd.coefIdx + rrrr.toNat) ∨
      (acRun rrrr s = .ok () (s.setJd { s.jd with coefIdx := s.jd.coefIdx + rrrr.toNat }) ∧
        (rrrr = 0 ∨ s.jd.coefIdx + rrrr.toNat < 64)) := by
  unfold acRun
  split
  · rename_i h
    exact .inl ⟨rfl, h⟩
  · rename_i h
    rw [not_and_or, not_not, Nat.not_le] at h
    exact .inr ⟨rfl, h⟩

end Sys2Proof.Machine
end

