-- ==== Sys2Proof/Tests/Slice0.lean ====
section
/-! SUPPORT. Tests: ill-formed terms, words written out from the encoding tables, the derived vectors of
spec/95_test_vectors.md (named in each comment), and for each statement with hypotheses a state that meets them. -/

namespace Sys2Proof.Tests

open Sys2Proof Sys2Proof.Machine

/-! WellFormed refuses. -/

/-- R231: a datagram of 251 bytes. -/
theorem test_wf_long : ¬ WellFormed (.pktAck ⟨0, 0, 0, List.replicate 247 0⟩) := by decide +kernel
/-- R81: TYPE 8 is no unknown type. -/
theorem test_wf_unknown : ¬ WellFormed (.pktUnknown 8 ⟨0, 0, 0, []⟩) := by decide
/-- R87, R123: a named code is no "other" marker. -/
theorem test_wf_other : ¬ WellFormed (.mkOther 0xC4 16) := by decide
/-- R151: FF 00 is no marker in data. -/
theorem test_wf_marker_in_data : ¬ WellFormed (.edMarkerInData 0) := by decide
/-- R95: DC classes 1 to 11. -/
theorem test_wf_dc : ¬ WellFormed (.dcClass 0) ∧ ¬ WellFormed (.dcClass 12) := by decide
/-- R96: a skip of 1 to 14 with class 0. -/
theorem test_wf_run_skip : ¬ WellFormed (.acRunSkip 0) ∧ ¬ WellFormed (.acRunSkip 15) := by decide
/-- R96: AC classes 1 to 11. -/
theorem test_wf_run_size : ¬ WellFormed (.acRunSize 3 0) ∧ ¬ WellFormed (.acRunSize 3 12) := by decide
/-- R96: AC classes 12 to 15. -/
theorem test_wf_bad_class : ¬ WellFormed (.acBadClass 3 11) := by decide

/-! Every constructor's decoding, from bytes written out by hand. -/

/-- R80, R81: TYPE, FLAGS, SIZE, RSV, then the body (PK4). -/
theorem test_decode_packets :
    decode .radio [0x00, 0x00, 0x00, 0x00] = .ok (.pktAck ⟨0, 0, 0, []⟩) ∧
    decode .radio [0x01, 0x00, 0x00, 0x00] = .ok (.pktNak ⟨0, 0, 0, []⟩) ∧
    decode .radio [0x02, 0x02, 0x24, 0x00, 0x00] = .ok (.pktInitialHeaderData ⟨2, 0x24, 0, [0]⟩) ∧
    decode .radio [0x03, 0x01, 0xC8, 0x77, 0x05] = .ok (.pktFrameData ⟨1, 0xC8, 0x77, [5]⟩) ∧
    decode .radio [0x04, 0x00, 0x00, 0x00] = .ok (.pktTelemetry ⟨0, 0, 0, []⟩) ∧
    decode .radio [0x05, 0x00, 0x00, 0x00] = .ok (.pktPing ⟨0, 0, 0, []⟩) ∧
    decode .radio [0x06, 0x00, 0x02, 0x00, 0x0B] = .ok (.pktSwitchChannel ⟨0, 2, 0, [0x0B]⟩) ∧
    decode .radio [0x07, 0x00, 0x00, 0x00] = .ok (.pktTxPowerUpdate ⟨0, 0, 0, []⟩) ∧
    decode .radio [0x08, 0x00, 0x00, 0x00] = .ok (.pktEnableLed ⟨0, 0, 0, []⟩) ∧
    decode .radio [0x5A, 0x13, 0x00, 0x00] = .ok (.pktUnknown 0x5A ⟨0x13, 0, 0, []⟩) :=
  ⟨rfl, rfl, rfl, rfl, rfl, rfl, rfl, rfl, rfl, rfl⟩

/-- R231: 251 bytes are too long, 3 too short (RA1, RA2). -/
theorem test_decode_packet_lengths :
    (∀ d : List Byte, d.length = 251 → decode .radio d = .error .long) ∧
    decode .radio [0x03, 0x02, 0x00] = .error .short :=
  ⟨fun d h => if_pos (by rw [h]; decide), rfl⟩

/-- R99: CMD in bits 1:0, BUF in bit 8, the other bits ignored (PK5, PK6). -/
theorem test_decode_jd_ctrl :
    decode (.reg 0x00) [0x00, 0x00, 0x00, 0x00] = .ok (.jdNop false) ∧
    decode (.reg 0x00) [0x01, 0x01, 0x00, 0x00] = .ok (.jdPrepare true) ∧
    decode (.reg 0x00) [0xFE, 0xFE, 0xFF, 0xFF] = .ok (.jdDecomp false) ∧
    decode (.reg 0x00) [0x03, 0x01, 0x00, 0x00] = .ok (.jdReserved true) := ⟨rfl, rfl, rfl, rfl⟩

/-- R100, R35, R40, R42: the other command words. -/
theorem test_decode_other_commands :
    decode (.reg 0x40) [0x01, 0x00, 0x00, 0x00] = .ok (.rxTake false) ∧
    decode (.reg 0x40) [0x03, 0x00, 0x00, 0x00] = .ok (.rxTake true) ∧
    decode (.reg 0x40) [0x02, 0x00, 0x00, 0x00] = .ok .rxClrSticky ∧
    decode (.reg 0x40) [0x04, 0x00, 0x00, 0x00] = .error .noCommand ∧
    decode (.reg 0x80) [0x01, 0x00, 0x00, 0x00] = .ok .txcCaptureReq ∧
    decode (.reg 0x94) [0x03, 0x00, 0x00, 0x00] = .ok (.txcFragStart true) ∧
    decode (.reg 0xC0) [0x22, 0x00, 0x00, 0x00] = .ok (.intW1c 0x22) := ⟨rfl, rfl, rfl, rfl, rfl, rfl, rfl⟩

/-- R87, R88: FF, the code, Lseg high byte first. -/
theorem test_decode_markers :
    decode .soi [0xFF, 0xD8] = .ok .mkSoi ∧
    decode .soi [0xFF, 0xD9] = .error .notSoi ∧
    decode .header [0xFF, 0xC0, 0x00, 0x11] = .ok (.mkSof0 0x0011) ∧
    decode .header [0xFF, 0xC4, 0x02, 0x5A] = .ok (.mkDht 0x025A) ∧
    decode .header [0xFF, 0xDB, 0x00, 0x43] = .ok (.mkDqt 0x0043) ∧
    decode .header [0xFF, 0xDD, 0x00, 0x04] = .ok (.mkDri 0x0004) ∧
    decode .header [0xFF, 0xDA, 0x00, 0x0C] = .ok (.mkSos 0x000C) ∧
    decode .header [0xFF, 0xFE, 0x01, 0x04] = .ok (.mkOther 0xFE 0x0104) ∧
    decode .header [0x12, 0x34, 0x00, 0x10] = .error .notMarker := ⟨rfl, rfl, rfl, rfl, rfl, rfl, rfl, rfl, rfl⟩

/-- R87, R132: the thirteen rejected markers. -/
theorem test_decode_rejected_markers :
    decode .header [0xFF, 0xC1, 0x00, 0x11] = .ok (.mkSof1Reject 0x11) ∧
    decode .header [0xFF, 0xC2, 0x00, 0x11] = .ok (.mkSof2Reject 0x11) ∧
    decode .header [0xFF, 0xC3, 0x00, 0x11] = .ok (.mkSof3Reject 0x11) ∧
    decode .header [0xFF, 0xC5, 0x00, 0x11] = .ok (.mkSof5Reject 0x11) ∧
    decode .header [0xFF, 0xC6, 0x00, 0x11] = .ok (.mkSof6Reject 0x11) ∧
    decode .header [0xFF, 0xC7, 0x00, 0x11] = .ok (.mkSof7Reject 0x11) ∧
    decode .header [0xFF, 0xC9, 0x00, 0x11] = .ok (.mkSof9Reject 0x11) ∧
    decode .header [0xFF, 0xCA, 0x00, 0x11] = .ok (.mkSof10Reject 0x11) ∧
    decode .header [0xFF, 0xCB, 0x00, 0x11] = .ok (.mkSof11Reject 0x11) ∧
    decode .header [0xFF, 0xCD, 0x00, 0x11] = .ok (.mkSof13Reject 0x11) ∧
    decode .header [0xFF, 0xCE, 0x00, 0x11] = .ok (.mkSof14Reject 0x11) ∧
    decode .header [0xFF, 0xCF, 0x00, 0x11] = .ok (.mkSof15Reject 0x11) ∧
    decode .header [0xFF, 0xD9, 0x00, 0x04] = .ok (.mkEoiReject 0x04) :=
  ⟨rfl, rfl, rfl, rfl, rfl, rfl, rfl, rfl, rfl, rfl, rfl, rfl, rfl⟩

/-- R154 (BS12, BS14, BS15): the restart markers. -/
theorem test_decode_restart :
    decode .restart [0xFF, 0xD0] = .ok (.mkRstn 0) ∧ decode .restart [0xFF, 0xD7] = .ok (.mkRstn 7) ∧
    decode .restart [0x00, 0xFF] = .error .notRestart := ⟨rfl, rfl, rfl⟩

/-- R154 (BS14): FF FF and FF D8 are no restart markers, and neither are FF F0 and FF F7 (assumption log 16). -/
theorem test_decode_no_restart :
    ∀ b ∈ [(0xFF : Byte), 0xD8, 0xCF, 0xF0, 0xF7], decode .restart [0xFF, b] = .error .notRestart := by decide

/-- R94, R151. -/
theorem test_decode_entropy :
    decode .entropy [0xFF, 0x00] = .ok .edStuffedFF ∧ decode .entropy [0xFF, 0xD1] = .ok (.edMarkerInData 0xD1) := ⟨rfl, rfl⟩

/-- R95, R96: SSSS in the low four bits, RRRR in the high four. -/
theorem test_decode_symbols :
    decode .dcSymbol [0x00] = .ok .dcClass0 ∧ decode .dcSymbol [0x0B] = .ok (.dcClass 11) ∧
    decode .dcSymbol [0x0C] = .error .dcRange ∧
    decode .acSymbol [0x00] = .ok .acEob ∧ decode .acSymbol [0xF0] = .ok .acZrl ∧
    decode .acSymbol [0xE0] = .ok (.acRunSkip 14) ∧ decode .acSymbol [0xE1] = .ok (.acRunSize 14 1) ∧
    decode .acSymbol [0x0F] = .ok (.acBadClass 0 15) := ⟨rfl, rfl, rfl, rfl, rfl, rfl, rfl, rfl⟩

/-- The words of the opcode table that two bytes and four bytes hold (assumption log 12). -/
theorem test_table_words :
    decodeTableWord 16 0xFFC4 = some (.mkDht 0) ∧ decodeTableWord 32 0x00000101 = some (.jdPrepare true) ∧
    decodeTableWord 8 0x03 = some (.pktFrameData ⟨0, 0, 0, [0]⟩) := ⟨rfl, rfl, rfl⟩

/-! Small states. -/

def params : Params := ⟨1024, 4096, 2, 3, 2⟩

/-- Right after reset, RX_BUF_SIZE 1024, POOL_SIZE 4096, CREDIT_INIT 2, T_INIT 3, T_STEADY 2. -/
def fresh : State := State.resetWith params 0

/-- A JD command runs at `mode` with `bs` as its whole source, in buffer 0. -/
def source (mode : JdMode) (bs : List Byte) : State :=
  { fresh with
    rxbuf0 := bs.zipIdx.map fun c => (c.2, c.1)
    jd := { fresh.jd with busy := true, phase := mode.phase, mode := mode, srcLen := BitVec.ofNat 24 bs.length } }

/-- The environment delivers `i` next. -/
def given (i : Input) (s : State) : State := { s with inputs := [i] }

/-- What a next state shows. -/
def shows {α : Type} (x : Host.Outcome State Fault Refusal) (f : State → α) : Option α :=
  match x with
  | .next t => some (f t)
  | _ => none

/-- The quantization table of 64 equal values (TB19, TB20). -/
def flatQuant (v : Byte) : QuantTable := quantTable (List.replicate 64 v)

/-- The DC table of P3: code 0 is class 0, code 1 is class 3; its AC table: code 0 is EOB, code 1 is 0x01. -/
def dcTable : HuffTable := ⟨[2, 0, 0, 0, 0, 0, 0, 0, 0, 0, 0, 0, 0, 0, 0, 0], [0, 1], [0, 3]⟩
def acTable : HuffTable := ⟨[2, 0, 0, 0, 0, 0, 0, 0, 0, 0, 0, 0, 0, 0, 0, 0], [0, 1], [0x00, 0x01]⟩

/-- The tables and the geometry of P3 (8 x 8, 4:4:4). -/
def withTables (s : State) : State :=
  { s with jd := { s.jd with
    width := 8, height := 8, msx := 1, msy := 1
    huff := ⟨some dcTable, some acTable, some dcTable, some acTable⟩
    quant := ⟨some (flatQuant 16), none, none, none⟩ } }

/-! Packets. -/

/-- RA10, LC9. -/
theorem test_ack :
    shows (exec (.pktAck ⟨0, 0, 0, []⟩) { fresh with txc := { fresh.txc with credit := 0, wdtCnt := 1 } })
      (fun t => (t.txc.credit, t.txc.firstAck, t.txc.wdtCnt, t.out)) = some (1, true, 0, []) ∧
    shows (exec (.pktAck ⟨0, 0, 0, []⟩) { fresh with txc := { fresh.txc with credit := 0, captureWait := true } })
      (fun t => (t.txc.credit, t.txc.captureWait, t.intr.status)) = some (0, false, 0x40) := by decide

/-- RA7, RA9. -/
theorem test_pass_through :
    shows (exec (.pktNak ⟨0, 0, 0, []⟩) fresh) (·.out) = some [.ctrlOut [1, 0, 0, 0]] ∧
    shows (exec (.pktTelemetry ⟨0, 1, 0, [9]⟩) fresh) (·.out) = some [.ctrlOut [4, 0, 1, 0, 9]] ∧
    shows (exec (.pktPing ⟨0, 0, 0, []⟩) fresh) (·.out) = some [.ctrlOut [5, 0, 0, 0]] ∧
    shows (exec (.pktSwitchChannel ⟨0, 1, 0, [0x0B, 7]⟩) fresh) (·.out) = some [.ctrlOut [6, 0, 1, 0, 0x0B, 7]] ∧
    shows (exec (.pktTxPowerUpdate ⟨0, 0, 0, []⟩) fresh) (·.out) = some [.ctrlOut [7, 0, 0, 0]] ∧
    shows (exec (.pktEnableLed ⟨2, 0, 0, []⟩) fresh) (·.out) = some [.ctrlOut [8, 2, 0, 0]] := by decide

/-- RA8, RA6. -/
theorem test_packet_drops :
    shows (exec (.pktSwitchChannel ⟨0, 2, 0, [0x0B]⟩) fresh) (fun t => (t.rx.dropCnt, t.intr.status, t.out)) =
      some (1, 0x08, []) ∧
    shows (exec (.pktUnknown 0x5A ⟨0x13, 0, 0, []⟩) fresh) (fun t => (t.rx.dropCnt, t.intr.status)) = some (1, 0x08) := by
  decide

/-- RA20 with two bytes. -/
theorem test_header :
    shows (exec (.pktInitialHeaderData ⟨2, 2, 0, [0, 0xAA, 0xBB]⟩) { fresh with rx := { fresh.rx with fillIdx := true } })
      (fun t => (t.rx.hdrLen, t.rx.hdrValid, t.rxbuf0 == [(0, 0xAA), (1, 0xBB)], t.rxbuf1 == [(0, 0xAA), (1, 0xBB)])) =
      some (2, true, true, true) := by decide

/-- RA11, RA13. -/
theorem test_frame :
    shows (exec (.pktFrameData ⟨0, 3, 0, [0, 0xAA, 0xBB, 0xCC]⟩) { fresh with rx := { fresh.rx with hdrLen := 36 } })
      (fun t => (t.rxbuf0, t.rx.frameReady)) = some ([(36, 0xAA), (37, 0xBB), (38, 0xCC)], false) ∧
    shows (exec (.pktFrameData ⟨2, 0, 0, [1]⟩) fresh)
      (fun t => (t.rx.frameLen0, t.rx.frameReady, t.rxbuf0, t.rx.ackPend, t.intr.status)) = some (245, true, [], 1, 0x02) := by
  decide

/-- RA14, RA16. -/
theorem test_frame_edges :
    shows (exec (.pktFrameData ⟨2, 100, 0, 2 :: List.replicate 100 7⟩)
        { fresh with params := { params with rxBufSize := 600 }, rx := { fresh.rx with hdrLen := 36 } })
      (fun t => (t.rx.dropCnt, t.rx.bounds, t.rx.frameReady)) = some (1, true, false) ∧
    shows (exec (.pktFrameData ⟨2, 0, 0, [0]⟩) { fresh with rx := { fresh.rx with frameReady := true, ackPend := 1 } })
      (fun t => (t.rx.overrun, t.intr.status, t.rx.ackPend)) = some (true, 0x06, 2) := by decide

/-! Commands. -/

/-- PK7, PK8, and R120 for PREPARE. -/
theorem test_jd_commands :
    shows (exec (.jdNop true) fresh) (fun t => jdStatusWord t.jd) = some 0 ∧
    shows (exec (.jdReserved false) fresh) (fun t => (jdStatusWord t.jd, t.intr.status)) = some (0x08, 0) ∧
    shows (exec (.jdDecomp false) fresh) (fun t => (jdStatusWord t.jd, t.intr.status)) = some (0x54, 0x01) ∧
    shows (exec (.jdPrepare true) { fresh with rx := { fresh.rx with frameLen1 := 199 } })
      (fun t => (jdStatusWord t.jd, t.jd.srcIdx, t.jd.srcLen)) = some (0x101, true, 199) := by decide

/-- ER3; R200 and R201 for DECOMP. -/
theorem test_jd_busy :
    shows (exec (.jdPrepare false) (source .tile [])) (fun t => (jdStatusWord t.jd, t.jd.mode)) = some (0x309, .tile) ∧
    shows (exec (.jdDecomp true) { fresh with jd := { fresh.jd with prepared := true, dcv1 := 5 } })
      (fun t => (jdStatusWord t.jd, t.jd.dcv1, t.jd.mode)) = some (0x201, 0, .mcu) := by decide

/-- RA17, RA18, RA19, ER4. -/
theorem test_rx_commands :
    shows (exec (.rxTake false) fresh) (fun t => (takeWord t.rx, t.rx.fillIdx)) = some (0, false) ∧
    shows (exec (.rxTake true) { fresh with rx := { fresh.rx with frameReady := true, frameLen0 := 626, overrun := true } })
      (fun t => (takeWord t.rx, t.rx.fillIdx, t.rx.overrun)) = some (0x00027202, true, false) ∧
    shows (exec .rxClrSticky { fresh with rx := { fresh.rx with bounds := true, dropCnt := 1 } })
      (fun t => (t.rx.bounds, t.rx.dropCnt)) = some (false, 1) := by decide

/-- LC6, LC7, R244, RA28. -/
theorem test_txc_commands :
    shows (exec .txcCaptureReq fresh) (fun t => (t.txc.credit, t.intr.status)) = some (1, 0x40) ∧
    shows (exec .txcCaptureReq { fresh with txc := { fresh.txc with credit := 0 } })
      (fun t => (t.txc.captureWait, t.intr.status)) = some (true, 0) ∧
    shows (exec (.txcFragStart true) fresh) (fun t => (t.txc.fragBusy, t.intr.status)) = some (false, 0x80) ∧
    shows (exec (.txcFragStart true) { fresh with txc := { fresh.txc with fragLen := 600, fragBusy := true, fragK := 1 } })
      (fun t => (t.txc.fragK, t.txc.fragS)) = some (1, 0) := by decide

/-- PK11, PK12, PK13. -/
theorem test_interrupts :
    shows (exec (.intW1c 0x02) { fresh with intr := ⟨0x22, 0⟩ }) (·.intr.status) = some 0x20 ∧
    irq ⟨0x20, 0x20⟩ = true ∧ irq ⟨0x20, 0x1F⟩ = false ∧ intUpdate 0x00 0x02 0x02 = 0x02 := by decide

/-! Markers. -/

/-- R122; TB8, TB9 for each rejected marker, the body not read. -/
theorem test_soi_and_rejects :
    shows (exec .mkSoi (source .soi [])) (·.jd.mode) = some .marker ∧
    ∀ i ∈ [Instr.mkSof1Reject 17, .mkSof2Reject 17, .mkSof3Reject 17, .mkSof5Reject 17, .mkSof6Reject 17, .mkSof7Reject 17,
        .mkSof9Reject 17, .mkSof10Reject 17, .mkSof11Reject 17, .mkSof13Reject 17, .mkSof14Reject 17, .mkSof15Reject 17,
        .mkEoiReject 4],
      shows (exec i (source .marker [1, 2])) (fun t => (t.jd.result, t.jd.srcPos, t.jd.busy)) = some (.fmt3, 0, false) := by
  decide

/-- TB22, TB23. -/
theorem test_sof0 :
    shows (exec (.mkSof0 17) (source .marker [0x08, 0x00, 0x10, 0x00, 0x10, 3, 1, 0x22, 0, 2, 0x11, 1, 3, 0x11, 1]))
      (fun t => (t.jd.width, t.jd.height, t.jd.msx, t.jd.msy, t.jd.qtid0, t.jd.qtid1, t.jd.qtid2, t.jd.srcPos)) =
      some (16, 16, 2, 2, 0, 1, 1, 15) ∧
    shows (exec (.mkSof0 17) (source .marker [0x08, 0x00, 0x10, 0x00, 0x10, 3, 1, 0x12, 0, 2, 0x11, 1, 3, 0x11, 1]))
      (·.jd.result) = some .fmt3 := by decide

/-- TB27, TB11. -/
theorem test_dri_other :
    shows (exec (.mkDri 4) (source .marker [0x00, 0x01])) (fun t => (t.jd.nrst, t.jd.mode)) = some (1, .marker) ∧
    shows (exec (.mkOther 0xFE 4) (source .marker [0x41, 0x42])) (fun t => (t.jd.srcPos, t.jd.mode)) = some (2, .marker) := by
  decide

/-- The first table of P3's DHT (R127: 24 arena bytes); TB13. -/
theorem test_dht :
    shows (exec (.mkDht 21) (source .marker (0x00 :: dcTable.bits ++ dcTable.val)))
      (fun t => (t.jd.huff.dc0, t.jd.huff.dc1, t.jd.used)) = some (some dcTable, none, 24) ∧
    shows (exec (.mkDht 21) (source .marker (0x02 :: dcTable.bits ++ dcTable.val))) (·.jd.result) = some .fmt1 := by decide

/-- TB15: the canonical codes of the standard luminance DC table. -/
theorem test_codes :
    canonicalCodes [0, 1, 5, 1, 1, 1, 1, 1, 1, 0, 0, 0, 0, 0, 0, 0] =
      [0, 2, 3, 4, 5, 6, 0xE, 0x1E, 0x3E, 0x7E, 0xFE, 0x1FE] := by decide

/-- TB19, TB20. -/
theorem test_quant :
    ((flatQuant 1)[0], (flatQuant 1)[1], (flatQuant 1)[9], (flatQuant 1)[63]) = (8192, 11362, 15760, 623) ∧
    ((flatQuant 16)[0], (flatQuant 16)[1], (flatQuant 16)[8]) = (131072, 181792, 181792) := by decide +kernel

/-- TB21, TB17. -/
theorem test_dqt :
    shows (exec (.mkDqt 67) (source .marker (0x03 :: 9 :: 9 :: 5 :: List.replicate 61 9)))
      (fun t => (t.jd.quant.q3.map (fun q => q[8]), t.jd.quant.q0.isSome, t.jd.used)) = some (some (5 * 11362), false, 256) ∧
    shows (exec (.mkDqt 67) (source .marker (0x10 :: List.replicate 64 9))) (·.jd.result) = some .fmt1 := by decide +kernel

/-- The SOS of P3; TB28. -/
theorem test_sos :
    shows (exec (.mkSos 12) (withTables (source .marker [3, 1, 0x00, 2, 0x11, 3, 0x11, 0, 0x3F, 0])))
      (fun t => (jdStatusWord t.jd, t.jd.srcPos, t.intr.status)) = some (0x06, 10, 0x01) ∧
    shows (exec (.mkSos 12) (source .marker [3, 1, 0x00, 2, 0x11, 3, 0x11, 0, 0x3F, 0])) (·.jd.result) = some .fmt1 := by
  decide

/-- BS12, BS13: RESTART(9) takes FF D1 and not FF D2. -/
theorem test_restart :
    shows (exec (.mkRstn 1) { source .restart [] with jd := { (source .restart []).jd with rsc := 10, dcv0 := 7, msk := 4 } })
      (fun t => (t.jd.dcv0, t.jd.msk, t.jd.rst, t.jd.mode)) = some (0, 0, 1, .huffDc) ∧
    shows (exec (.mkRstn 2) { source .restart [] with jd := { (source .restart []).jd with rsc := 10, dcv0 := 7, msk := 4 } })
      (fun t => (t.jd.result, t.jd.dcv0, t.jd.msk)) = some (.fmt1, 7, 4) := by decide

/-! Entropy data and blocks. -/

/-- BS2, BS3. -/
theorem test_entropy_pairs :
    shows (exec .edStuffedFF (source .huffDc [])) (fun t => (t.jd.hx.c, t.jd.hx.m)) = some (0xFF, 0x80) ∧
    shows (exec (.edMarkerInData 0xD9) (source .huffDc [])) (·.jd.result) = some .fmt1 := by decide

/-- BS6: four BITEXTs over a stuffed FF. -/
theorem test_bitext :
    (match ((bitext 4 (source .huffDc [0xA5, 0xFF, 0x00, 0x3C])).bind fun a s => (bitext 8 s).bind fun b s =>
        (bitext 4 s).bind fun c s => (bitext 2 s).bind fun d s => Res.ok (a, b, c, d) s) with
      | .ok r s => some (r, s.jd.srcPos, s.jd.msk)
      | _ => none) = some ((0xA, 0x5F, 0xF, 0), 4, 0x20) := by decide

/-- BD1, BD2, BD3. -/
theorem test_extend :
    [extend 0 1, extend 1 1, extend 2 3, extend 4 3, extend 3 3, extend 0 3, extend 7 3, extend 1023 10, extend 0 11,
      extend 2047 11].map BitVec.toInt = [-1, 1, -5, 4, -4, -7, 7, 1023, -2047, 2047] := by decide

/-- BD4, with q[0] = 8192; BD6 with raw bit 1. -/
theorem test_dc_class :
    shows (exec (.dcClass 3)
        { source (.symbolDc 3) [0x40] with jd := { (source (.symbolDc 3) [0x40]).jd with
          msx := 1, msy := 1, quant := ⟨some (flatQuant 1), none, none, none⟩ } })
      (fun t => (t.jd.dcv0.toInt, t.jd.tmp[0].toInt, t.jd.tmp[1], t.jd.msk)) = some (-5, -160, 0, 0x10) ∧
    shows (exec (.dcClass 1)
        { source (.symbolDc 1) [0x80] with jd := { (source (.symbolDc 1) [0x80]).jd with
          dcv0 := 0x7FFF, msx := 1, msy := 1, quant := ⟨some (flatQuant 1), none, none, none⟩ } })
      (fun t => (t.jd.dcv0.toInt, t.jd.tmp[0])) = some (-32768, 1048576) := by decide +kernel

/-- BS7 and BS3 under DC_CLASS: INP after 8 bits; FMT1 behind FF D9. -/
theorem test_dc_class_ends :
    shows (exec (.dcClass 11) (withTables (source (.symbolDc 11) [0x80])))
      (fun t => (t.jd.result, t.jd.srcPos, t.jd.msk, t.jd.cur, t.jd.dcv0)) = some (.inp, 1, 0, 0, 0) ∧
    shows (exec (.dcClass 1) (withTables (source (.symbolDc 1) [0xFF, 0xD9])))
      (fun t => (t.jd.result, t.jd.srcPos, t.jd.msk, t.jd.cur, t.jd.dcv0)) = some (.fmt1, 2, 0, 0, 0) := by decide +kernel

/-- R171, R174: d is the predictor, 4; (4 * 131072) >> 8 = 2048. -/
theorem test_dc_class0 :
    shows (exec .dcClass0 (withTables { source (.symbolDc 0) [] with jd := { (source (.symbolDc 0) []).jd with dcv0 := 4 } }))
      (fun t => (t.jd.dcv0, t.jd.tmp[0], t.jd.coefIdx)) = some (4, 2048, 1) := by decide +kernel

/-- A block at coefficient `i`, q all from 8-bit value 1 or 4, with raw bits to come. -/
def atCoef (i : Nat) (v : Byte) (bs : List Byte) : State :=
  { source (.symbolAc 0) bs with jd := { (source (.symbolAc 0) bs).jd with
    msx := 1, msy := 1, quant := ⟨some (flatQuant v), none, none, none⟩
    coefIdx := i, tmp := Vector.replicate 64 0 } }

/-- BD7 with q[1] = 11362, (1 * 11362) >> 8 = 44; BD12. -/
theorem test_ac_run_size :
    shows (exec (.acRunSize 0 1) (atCoef 1 1 [0x80])) (fun t => (t.jd.tmp[1].toInt, t.jd.acAny, t.jd.coefIdx)) =
      some (44, true, 2) ∧
    shows (exec (.acRunSize 0 2) (atCoef 2 4 [0x00])) (fun t => t.jd.tmp[8].toInt) = some (-533) := by decide +kernel

/-- BD9: the fifth 0xE1 reaches position 75; BD10: position 63 ends the loop. -/
theorem test_ac_run_end :
    shows (exec (.acRunSize 14 1) (atCoef 61 1 [0x80])) (fun t => (t.jd.result, t.jd.srcPos)) = some (.fmt1, 0) ∧
    shows (exec (.acRunSize 0 1) (atCoef 63 1 [0x80])) (fun t => (t.jd.coefIdx, t.jd.mode)) = some (64, .transform) := by
  decide +kernel

/-- BD11, BD8, and R175 for a run of 3 with class 0. -/
theorem test_ac_others :
    shows (exec .acEob (atCoef 1 1 [])) (fun t => (t.jd.mode, t.jd.acAny)) = some (.transform, false) ∧
    shows (exec .acZrl (atCoef 33 1 [])) (·.jd.coefIdx) = some 49 ∧
    shows (exec (.acRunSkip 3) (atCoef 1 1 [])) (·.jd.coefIdx) = some 5 ∧
    shows (exec (.acBadClass 0 15) (atCoef 49 1 [])) (·.jd.result) = some .fmt1 := by decide

/-- BD13, BD14, BD15. -/
theorem test_bfly :
    (bfly #v[1000, 0, 0, 0, 0, 0, 0, 0]).toList.map BitVec.toInt = List.replicate 8 1000 ∧
    (bfly #v[0, 1000, 0, 0, 0, 0, 0, 0]).toList.map BitVec.toInt = [1000, 847, 567, 198, -198, -567, -847, -1000] ∧
    (bfly #v[800, -400, 200, 100, -50, 25, 10, -5]).toList.map BitVec.toInt = [680, 515, 435, 456, 624, 1149, 1301, 1240] := by
  decide +kernel

/-- BD24: the pass order; sample 26 is 109. -/
theorem test_pass_order :
    ((columnPass (rowPass ((((Vector.replicate 64 (0 : Word)).set 1 457).set 27 (-2763)).set 48 2946))).toList.drop 24).take 8 =
      [125, 116, 109, 112, 120, 123, 116, 107] := by decide +kernel

/-- BD20, BD21, BD22. -/
theorem test_flat :
    ((flatBlock (Vector.replicate 64 (-3072)))[5], (flatBlock (Vector.replicate 64 (-2048)))[5],
      (flatBlock (Vector.replicate 64 0))[63]) = (116, 120, 128) := by decide +kernel

/-- CC1 to CC10. -/
theorem test_colour :
    ([(128, 128, 128), (76, 85, 255), (100, 127, 128), (255, 128, 128), (0, 128, 128), (29, 255, 107), (150, 44, 21),
      (225, 0, 148), (138, 120, 128), (114, 128, 142)] : List (Word × Word × Word)).map (fun p =>
        let c := yccToRgb p.1 (p.2.1 - 128) (p.2.2 - 128) 0 0 0
        rgb565 c.1 c.2.1 c.2.2) =
      [0x8410, 0xF800, 0x632C, 0xFFFF, 0x0000, 0x001F, 0x07E0, 0xFFE0, 0x8C6F, 0x834E] := by decide +kernel

/-- SD3: sample `i` of block `b` holds 64·b + i; SD5. -/
theorem test_pixel_place :
    let j : Jd := { fresh.jd with
      msx := 2, msy := 2, width := 20, height := 20, loopX := 16
      mcubuf := Vector.ofFn fun b => Vector.ofFn fun i => BitVec.ofNat 8 (64 * b.val + i.val) }
    (j.lumaAt 9 12, (j.chromaAt 4 9 12).toInt) = (225, -76) ∧
    (tileWidth j, (tileRect j).left, (tileRect j).right) = (4, 16, 19) := by decide +kernel

/-! Steps without an instruction. -/

/-- RA1, RA2. -/
theorem test_long_short :
    shows (step (given (.radio (List.replicate 251 0)) fresh)) (fun t => (t.rx.dropCnt, t.intr.status)) = some (1, 0x08) ∧
    shows (step (given (.radio [3, 2, 0]) fresh)) (·.rx.dropCnt) = some 1 := by decide +kernel

/-- PK9, PK14, PK15. -/
theorem test_reads :
    shows (step (given (.regRead 0x30 4) fresh)) (·.out) = some [.regValue 0x30 0] ∧
    shows (step (given (.regRead 0x20 4) fresh)) (·.out) = some [.regValue 0x20 0x10000000] ∧
    shows (step (given (.regRead 0x88 4) fresh)) (·.out) = some [.regValue 0x88 2] := by decide

/-- LC1, LC2, LC3. -/
theorem test_transmit :
    shows (step { fresh with rx := { fresh.rx with ackPend := 1 } }) (fun t => (t.out, t.rx.ackPend, t.txp.busy)) =
      some ([.radioTx [0, 0, 0, 0]], 0, true) ∧
    shows (step (given .txdone { fresh with txp := ⟨true, []⟩ })) (fun t => (t.txp.busy, t.intr.status)) =
      some (false, 0x20) ∧
    shows (step (given .txdone fresh)) (·.intr.status) = some 0 := by decide

/-- RA26: the last fragment of 600 bytes. -/
theorem test_fragment :
    ((fragDatagram true 600 2 fun a => BitVec.ofNat 8 a).take 6, (fragDatagram true 600 2 fun _ => 0).length) =
      ([0x03, 0x02, 0x6E, 0x00, 0x02, 0xEA], 115) := by decide +kernel

/-- LC10: T_INIT = 3. -/
theorem test_tick :
    shows (step (given .tick { fresh with txc := { fresh.txc with wdtCnt := 1 } })) (fun t => (t.txc.wdtCnt, t.txc.credit)) =
      some (2, 2) ∧
    shows (step (given .tick { fresh with txc := { fresh.txc with wdtCnt := 2 } }))
      (fun t => (t.txc.wdtCnt, t.txc.credit, t.intr.status)) = some (0, 3, 0x10) := by decide

/-- SD10; R331: a reset while the tile is pending raises no JD_DONE. -/
theorem test_tile_answers :
    shows (step (given (.tileAnswer false) (source .tile []))) (fun t => (t.jd.result, t.jd.posX, t.jd.mode)) =
      some (.intr, 0, .idle) ∧
    shows (step (given .reset (source .tile []))) (fun t => (t.jd.mode, t.jd.done, t.intr.status)) =
      some (.idle, false, 0) := by decide

/-! Witnesses: for each statement with hypotheses, states and operands that meet them. -/

theorem ready {s : State} {n : Nat} (hr : s.raced = [])
    (h : s.jd.srcPos.toNat + n ≤ s.jd.srcLen.toNat ∧ s.jd.srcLen.toNat ≤ s.params.rxBufSize) : SourceReady s n :=
  ⟨h.1, h.2, fun k _ => by rw [State.oldValues, hr]; rfl⟩

theorem witness_DecodeInvertsEncode :
    WellFormed (.pktUnknown 9 ⟨0, 0, 0, List.replicate 246 0⟩) ∧ WellFormed (.mkOther 0xD0 0) ∧ WellFormed (.dcClass 11) ∧
    WellFormed (.acRunSkip 14) ∧ WellFormed (.acRunSize 15 1) ∧ WellFormed (.acBadClass 0 12) := by decide +kernel

theorem witness_DecodedIsWellFormed : decode .dcSymbol [0x0B] = .ok (.dcClass 11) := rfl

theorem witness_StepRunsDeliveredInstruction :
    (let s := given (.radio [5, 0, 0, 0]) fresh
     s.turn = (.env, s) ∧ s.inputs = [.radio [5, 0, 0, 0]] ∧ decode .radio [5, 0, 0, 0] = .ok (.pktPing ⟨0, 0, 0, []⟩)) ∧
    (let s := given (.regWrite 0x94 4 3) fresh
     s.turn = (.env, s) ∧ s.inputs = [.regWrite 0x94 4 3] ∧ accessOk 0x94 4 = true ∧
       decode (.reg 0x94) (leBytes 3) = .ok (.txcFragStart true)) :=
  ⟨⟨rfl, rfl, rfl⟩, rfl, rfl, rfl, rfl⟩

theorem witness_StepRunsSourceInstruction :
    (let s := source .soi [0xFF, 0xD8]
     s.turn = (.jd, s) ∧ SourceReady s 2 ∧ decode .soi (sourceBytes s 2) = .ok .mkSoi) ∧
    (let s := source .marker [0xFF, 0xDD, 0x00, 0x04]
     s.turn = (.jd, s) ∧ SourceReady s 4 ∧ decode .header (sourceBytes s 4) = .ok (.mkDri 4)) ∧
    (let s := source .restart [0xFF, 0xD7]
     s.turn = (.jd, s) ∧ SourceReady s 2 ∧ decode .restart (sourceBytes s 2) = .ok (.mkRstn 7)) ∧
    (let s := source .huffDc [0xFF, 0x00]
     s.turn = (.jd, s) ∧ s.jd.hx.m = 0 ∧ SourceReady s 2 ∧ decode .entropy (sourceBytes s 2) = .ok .edStuffedFF) ∧
    (let s := source (.symbolDc 11) []
     s.turn = (.jd, s) ∧ decode .dcSymbol [11] = .ok (.dcClass 11)) ∧
    (let s := source (.symbolAc 0xF0) []
     s.turn = (.jd, s) ∧ decode .acSymbol [0xF0] = .ok .acZrl) :=
  ⟨⟨rfl, ready rfl (by decide), rfl⟩, ⟨rfl, ready rfl (by decide), rfl⟩,
    ⟨rfl, ready rfl (by decide), test_decode_restart.2.1⟩, ⟨rfl, rfl, ready rfl (by decide), rfl⟩, ⟨rfl, rfl⟩, rfl, rfl⟩

theorem witness_SourceBytesRejected :
    (let s := source .soi [0xFF, 0xD9]
     s.turn = (.jd, s) ∧ SourceReady s 2 ∧ decode .soi (sourceBytes s 2) = .error .notSoi) ∧
    (let s := source .marker [0x12, 0x34, 0x00, 0x10]
     s.turn = (.jd, s) ∧ SourceReady s 4 ∧ decode .header (sourceBytes s 4) = .error .notMarker) ∧
    (let s := source .restart [0x00, 0xFF]
     s.turn = (.jd, s) ∧ SourceReady s 2 ∧ decode .restart (sourceBytes s 2) = .error .notRestart) ∧
    (let s := source .soi [0xFF]
     s.turn = (.jd, s) ∧ SourceReady s 1 ∧ s.jd.srcPos.toNat + 1 = s.jd.srcLen.toNat) ∧
    (let s := source .marker []
     s.turn = (.jd, s) ∧ SourceReady s 0 ∧ s.jd.srcPos.toNat + 0 = s.jd.srcLen.toNat) ∧
    (let s := source .restart [0xFF]
     s.turn = (.jd, s) ∧ SourceReady s 1 ∧ s.jd.srcPos.toNat + 1 = s.jd.srcLen.toNat) :=
  ⟨⟨rfl, ready rfl (by decide), rfl⟩, ⟨rfl, ready rfl (by decide), rfl⟩,
    ⟨rfl, ready rfl (by decide), test_decode_restart.2.2⟩, ⟨rfl, ready rfl (by decide), rfl⟩, ⟨rfl, ready rfl (by decide), rfl⟩, rfl, ready rfl (by decide), rfl⟩

theorem witness_EntropyBytes :
    (let s := source .huffAc [0x7E]
     s.turn = (.jd, s) ∧ s.jd.hx.m = 0 ∧ SourceReady s 1 ∧ sourceBytes s 1 ≠ [0xFF]) ∧
    (let s := source .huffDc []
     s.turn = (.jd, s) ∧ s.jd.hx.m = 0 ∧ s.jd.srcPos = s.jd.srcLen) ∧
    (let s := source .huffDc [0xFF]
     s.turn = (.jd, s) ∧ s.jd.hx.m = 0 ∧ SourceReady s 1 ∧ sourceBytes s 1 = [0xFF] ∧
       s.jd.srcPos.toNat + 1 = s.jd.srcLen.toNat) :=
  ⟨⟨rfl, rfl, ready rfl (by decide), by decide⟩, ⟨rfl, rfl, rfl⟩, rfl, rfl, ready rfl (by decide), rfl, rfl⟩

/-- One datagram at the boundary of each clause. -/
theorem witness_DatagramsDropped :
    (∀ d : List Byte, (given (.radio d) fresh).turn = (.env, given (.radio d) fresh)) ∧
    250 < (List.replicate 251 (0 : Byte)).length ∧ ([1, 2, 3] : List Byte).length < 4 ∧
    ([0x03, 0, 0, 0] : List Byte).length < 5 ∧ 245 < (246 : Byte).toNat ∧
    (([0x02, 0, 245, 0, 0] : List Byte).length < 5 + (245 : Byte).toNat) ∧
    fresh.params.rxBufSize < 0 + (5 : Byte).toNat * 245 + (0 : Byte).toNat ∧
    (([0x08, 0, 1, 0] : List Byte).length < 4 + (1 : Byte).toNat) ∧ 9 ≤ (9 : Byte).toNat :=
  ⟨fun _ => rfl, by rw [List.length_replicate]; decide, by decide, by decide, by decide, by decide, by decide, by decide,
    by decide⟩

/-- SIZE 0 with no body, and SIZE equal to the body's length. -/
theorem witness_ControlPacketsPassThrough :
    (⟨0, 0, 0, []⟩ : Packet).size.toNat ≤ (⟨0, 0, 0, []⟩ : Packet).body.length ∧
    (⟨0, 1, 0, [7]⟩ : Packet).size.toNat ≤ (⟨0, 1, 0, [7]⟩ : Packet).body.length := by decide

theorem witness_AckReleasesCredit :
    (⟨0, 0, 0, []⟩ : Packet).size.toNat ≤ (⟨0, 0, 0, []⟩ : Packet).body.length ∧ fresh.txc.captureWait = false ∧
    ({ fresh with txc := { fresh.txc with captureWait := true } } : State).txc.captureWait = true := by decide

/-- A fragment that ends at the last byte of a buffer of 283 bytes. -/
def edge : State := { fresh with params := { params with rxBufSize := 283 }, rx := { fresh.rx with hdrLen := 36 } }

theorem edge_memInv : MemInv edge := ⟨List.Pairwise.nil, List.Pairwise.nil, List.Pairwise.nil⟩

theorem witness_FragmentPlaced :
    MemInv edge ∧ (2 : Byte).toNat ≤ 245 ∧ (2 : Byte).toNat ≤ ([0xAA, 0xBB] : List Byte).length ∧
    edge.rx.hdrLen.toNat + (1 : Byte).toNat * 245 + (2 : Byte).toNat ≤ edge.params.rxBufSize ∧
    0 + (1 : Byte).toNat * 245 + (38 : Byte).toNat ≤ edge.params.rxBufSize ∧
    (⟨0, 2, 0, [1, 0xAA, 0xBB]⟩ : Packet).final = false := ⟨edge_memInv, by decide⟩

theorem witness_HeaderCompletes :
    MemInv edge ∧ (38 : Byte).toNat ≤ (List.replicate 38 (0 : Byte)).length ∧
    (1 : Byte).toNat * 245 + (38 : Byte).toNat ≤ edge.params.rxBufSize ∧ (⟨2, 38, 0, []⟩ : Packet).final = true :=
  ⟨edge_memInv, by decide⟩

theorem witness_FrameCompletes :
    MemInv edge ∧ (2 : Byte).toNat ≤ ([0xAA, 0xBB] : List Byte).length ∧
    edge.rx.hdrLen.toNat + (1 : Byte).toNat * 245 + (2 : Byte).toNat ≤ edge.params.rxBufSize ∧
    (⟨2, 2, 0, [1, 0xAA, 0xBB]⟩ : Packet).final = true := ⟨edge_memInv, by decide⟩

theorem witness_CommandsNotAccepted :
    (source .tile []).jd.busy = true ∧
    ({ fresh with txc := { fresh.txc with fragBusy := true } } : State).txc.fragBusy = true := by decide

theorem witness_DecoderCommandsStart :
    fresh.jd.busy = false ∧ fresh.jd.prepared = false ∧
    (let s : State := { fresh with jd := { fresh.jd with prepared := true } }
     s.jd.busy = false ∧ s.jd.prepared = true) := by decide

theorem witness_TransmitterCommands :
    fresh.txc.captureWait = false ∧ fresh.txc.credit ≠ 0 ∧ fresh.txc.fragBusy = false ∧ fresh.txc.fragLen = 0 ∧
    (let s : State := { fresh with txc := { fresh.txc with credit := 0, fragLen := 1 } }
     s.txc.captureWait = false ∧ s.txc.credit = 0 ∧ s.txc.fragBusy = false ∧ s.txc.fragLen ≠ 0) := by decide

theorem witness_SoiAndRejectedMarkers : 2 < (3 : Half).toNat := by decide

theorem witness_SegmentChecks :
    (2 : Half).toNat ≤ 2 ∧ 514 < (515 : Half).toNat ∧
    (let s := source .marker [1, 2]
     SourceReady s 2 ∧ s.jd.srcPos.toNat + 2 = s.jd.srcLen.toNat ∧ 2 + 2 < (5 : Half).toNat ∧ (5 : Half).toNat ≤ 514) :=
  ⟨by decide, by decide, ready rfl (by decide), by decide⟩

/-- A SOF0 body of 15 bytes by its checked bytes. -/
def sofState (b5 b7 b8 b10 b11 b13 b14 : Byte) : State :=
  source .marker [8, 0, 16, 0, 16, b5, 1, b7, b8, 2, b10, b11, 3, b13, b14]

theorem witness_Sof0Segment :
    (16 : Half).toNat = 14 + 2 ∧ SourceReady (source .marker (List.replicate 14 0)) 14 ∧ (17 : Half).toNat = 15 + 2 ∧
    (∀ b5 b7 b8 b10 b11 b13 b14 : Byte, SourceReady (sofState b5 b7 b8 b10 b11 b13 b14) 15 ∧
      ([5, 7, 8, 10, 11, 13, 14].map fun i => (sourceBytes (sofState b5 b7 b8 b10 b11 b13 b14) 15).getD i 0) =
        [b5, b7, b8, b10, b11, b13, b14]) ∧
    (1 : Byte) ≠ 3 ∧ ¬ ((0x12 : Byte) = 0x11 ∨ (0x12 : Byte) = 0x21 ∨ (0x12 : Byte) = 0x22) ∧ 3 < (4 : Byte).toNat ∧
    (0x21 : Byte) ≠ 0x11 ∧ (3 : Byte).toNat ≤ 3 :=
  ⟨rfl, ready rfl (by decide), rfl, fun _ _ _ _ _ _ _ =>
    ⟨ready rfl ⟨(by decide : 0 + 15 ≤ 15), (by decide : 15 ≤ 1024)⟩, rfl⟩, by decide⟩

theorem witness_DriAndSkippedSegments :
    (3 : Half).toNat = 1 + 2 ∧ SourceReady (source .marker [7]) 1 ∧
    (4 : Half).toNat = 2 + 2 ∧ SourceReady (source .marker [0, 1]) 2 :=
  ⟨rfl, ready rfl (by decide), rfl, ready rfl (by decide)⟩

/-- One table, with an arena of exactly 256 bytes. -/
theorem witness_DqtTables :
    let s : State := { source .marker (3 :: List.replicate 64 9) with params := { params with poolSize := 256 } }
    (67 : Half).toNat = 65 + 2 ∧ SourceReady s 65 ∧
    sourceBytes s 65 = [((3 : BitVec 2), List.replicate 64 (9 : Byte))].flatMap (fun t => t.1.setWidth 8 :: t.2) ∧
    s.jd.used.toNat + 256 * 1 ≤ s.params.poolSize.toNat :=
  ⟨rfl, ready rfl (by decide), by decide +kernel, by decide⟩

/-- One DC table (id 1) of a segment: 19 bytes, 24 bytes of the arena. -/
def dcEntry : (Bool × Bool) × List Byte × List Byte := ((true, false), dcTable.bits, dcTable.val)

theorem dcEntry_legal : DhtLegal dcEntry := ⟨rfl, rfl, by decide⟩

/-- A segment, with an arena of `pool` bytes. -/
def segmentState (pool : BitVec 16) (bytes : List Byte) : State :=
  { source .marker bytes with params := { params with poolSize := pool } }

/-- One DC table, with an arena of exactly its 24 bytes. -/
theorem witness_DhtTables :
    let s := segmentState 24 (dhtBytes dcEntry)
    (21 : Half).toNat = 19 + 2 ∧ SourceReady s 19 ∧ sourceBytes s 19 = [dcEntry].flatMap dhtBytes ∧
    (∀ t ∈ [dcEntry], DhtLegal t) ∧
    s.jd.used.toNat + ([dcEntry].map fun t => huffArena t.2.1).sum ≤ s.params.poolSize.toNat :=
  ⟨rfl, ready rfl (by decide), by decide, fun _ h => List.mem_singleton.mp h ▸ dcEntry_legal, by decide⟩

/-- Tables that fail, each with the arena in which it does so behind `dcEntry` and the bytes that are then free: too few bytes;
a bad class; the three allocations; too few values; a DC value of 12. -/
def badTables : List (BitVec 16 × List Byte) :=
  [(24, 0x00 :: List.replicate 15 0), (24, 0x02 :: List.replicate 16 0), (24 + 15, 0x11 :: dcTable.bits),
    (24 + 19, 0x00 :: dcTable.bits), (24 + 20, 0x00 :: dcTable.bits ++ [0]), (24 + 23, 0x00 :: dcTable.bits ++ [0, 1]),
    (24 + 24, 0x00 :: dcTable.bits ++ [0, 12])]

/-- The DQT table with id 3 that stands before the ones that fail. -/
def dqtEntry : BitVec 2 × List Byte := (3, List.replicate 64 9)

theorem witness_TableErrors :
    (∀ c ∈ badTables, let s := segmentState c.1 (dhtBytes dcEntry ++ c.2)
      SourceReady s (19 + c.2.length) ∧ sourceBytes s (19 + c.2.length) = [dcEntry].flatMap dhtBytes ++ c.2 ∧ c.2 ≠ [] ∧
      s.jd.used.toNat + ([dcEntry].map fun t => huffArena t.2.1).sum ≤ s.params.poolSize.toNat) ∧
    (∀ t ∈ [dcEntry], DhtLegal t) ∧ up4 (2 * codeCount dcTable.bits) = 4 ∧ up4 (codeCount dcTable.bits) = 4 ∧
    (0x02 : Byte) &&& 0xEE ≠ 0 ∧ (0x11 : Byte) &&& 0xEE = 0 ∧ (0x00 : Byte).getLsbD 4 = false ∧
    (∀ c ∈ [(255, [0x00]), (256 + 255, List.replicate 65 0x00), (256, List.replicate 65 0x10), (256, List.replicate 65 0x04)],
      let s := segmentState c.1 (dqtEntry.1.setWidth 8 :: dqtEntry.2 ++ c.2)
      SourceReady s (65 + c.2.length) ∧
      sourceBytes s (65 + c.2.length) = [dqtEntry].flatMap (fun t => t.1.setWidth 8 :: t.2) ++ c.2) ∧
    dqtEntry.2.length = 64 ∧ (0x10 : Byte) &&& 0xF0 ≠ 0 ∧ 3 < ((0x04 : Byte) &&& 0x0F).toNat :=
  ⟨fun c h => ⟨ready rfl (by revert c; decide), by revert c; decide, by revert c; decide, by revert c; decide⟩,
    fun _ h => List.mem_singleton.mp h ▸ dcEntry_legal, rfl, rfl, by decide, by decide, rfl,
    fun c h => ⟨ready rfl (by revert c; decide +kernel), by revert c; decide +kernel⟩, rfl, by decide, by decide⟩

/-- A scan of three components by its selectors, with the tables of P3. -/
def sosState (ns s0 s1 s2 : Byte) : State := withTables (source .marker [ns, 1, s0, 2, s1, 3, s2])

theorem witness_SosChecks :
    (9 : Half).toNat = 7 + 2 ∧ (∀ ns s0 s1 s2 : Byte, SourceReady (sosState ns s0 s1 s2) 7) ∧
    (source .marker [1]).jd.width = 0 ∧ (sosState 3 0 0 0).jd.width ≠ 0 ∧ (sosState 3 0 0 0).jd.height ≠ 0 ∧
    (sourceBytes (sosState 1 0 0 0) 7).getD 0 0 ≠ 3 ∧
    (∀ i < 3, ComponentOk (sourceBytes (sosState 3 0x00 0x11 0x11) 7) (sosState 3 0x00 0x11 0x11).jd i) ∧
    (sourceBytes (sosState 3 0x00 0x11 0x01) 7).getD (2 + 2 * 2) 0 ∉ [0x00, 0x11] ∧
    ¬ ComponentOk (sourceBytes (source .marker [3, 1, 0, 2, 0, 3, 0]) 7) (source .marker []).jd 0 ∧
    (sosState 3 0 0 0).jd.msx.toNat * (sosState 3 0 0 0).jd.msy.toNat ≠ 0 ∧
    ({ (sosState 3 0 0 0).jd with msx := 0 } : Jd).msx.toNat * 1 = 0 := by
  refine ⟨rfl, fun _ _ _ _ => ready rfl ⟨(by decide : 0 + 7 ≤ 7), (by decide : 7 ≤ 1024)⟩, rfl, by decide, by decide,
    by decide, ?_, by decide, ?_, by decide, rfl⟩
  · intro i hi
    match i, hi with
    | 0, _ => exact ⟨.inl rfl, ⟨rfl, rfl⟩, rfl⟩
    | 1, _ => exact ⟨.inr rfl, ⟨rfl, rfl⟩, rfl⟩
    | 2, _ => exact ⟨.inr rfl, ⟨rfl, rfl⟩, rfl⟩
  · exact fun h => Bool.false_ne_true h.huff.1

/-- RSC 0 and 1: the expected numbers are 7 and 0. -/
theorem witness_RestartMarker :
    (7 : BitVec 3).toNat = ((0 : Half) - 1).toNat % 8 ∧ (0 : BitVec 3).toNat = ((1 : Half) - 1).toNat % 8 ∧
    (1 : BitVec 3).toNat ≠ ((1 : Half) - 1).toNat % 8 := by decide

/-- The bits of A5 FF 3C, and the 8 bits left in `cur`; then 8 bits with 9 or 11 asked for, behind them the end of the source,
FF and the end, FF 01 and FF FF. -/
theorem witness_BitextTakesNextBits :
    (let s := source .huffDc [0xA5, 0xFF, 0x00, 0x3C]
     ZeroOrOneHot s.jd.msk ∧ SourceReady s 4 ∧
       s.bitString 4 = some (byteBits 0xA5 ++ byteBits 0xFF ++ byteBits 0x3C) ∧
       16 ≤ (byteBits 0xA5 ++ byteBits 0xFF ++ byteBits 0x3C).length) ∧
    (let s : State := { fresh with jd := { fresh.jd with msk := 0x80, cur := 0xA5 } }
     ZeroOrOneHot s.jd.msk ∧ SourceReady s 0 ∧ s.bitString 0 = some (byteBits 0xA5) ∧ 8 ≤ (byteBits 0xA5).length) ∧
    (byteBits 0x3C).length < (9 : BitVec 4).toNat ∧ (11 : BitVec 4).toNat ≤ 11 ∧
    (let s := withTables (source .huffAc [0x3C])
     ZeroOrOneHot s.jd.msk ∧ SourceReady s 1 ∧ s.bitString 1 = some (byteBits 0x3C) ∧
       s.jd.quant.get (s.jd.qtid (s.jd.cmp s.jd.blk)) = some (flatQuant 16) ∧ s.jd.coefIdx + (15 : BitVec 4).toNat < 64 ∧
       s.jd.srcPos.toNat + 1 = s.jd.srcLen.toNat) ∧
    (let s := withTables (source .huffAc [0x3C, 0xFF])
     SourceReady s 1 ∧ s.bitString 1 = some (byteBits 0x3C) ∧ SourceReady s 2 ∧
       sourceBytes s 2 = sourceBytes s 1 ++ [0xFF] ∧ s.jd.srcPos.toNat + 1 + 1 = s.jd.srcLen.toNat) ∧
    ∀ xx ∈ [(0x01 : Byte), 0xFF], let s := withTables (source .huffAc [0x3C, 0xFF, xx])
     SourceReady s 1 ∧ s.bitString 1 = some (byteBits 0x3C) ∧ SourceReady s 3 ∧
       sourceBytes s 3 = sourceBytes s 1 ++ [0xFF, xx] ∧ xx ≠ 0 :=
  ⟨⟨rfl, ready rfl (by decide), by decide, by decide⟩, ⟨rfl, ready rfl (by decide), by decide, by decide⟩, by decide, by decide,
    ⟨rfl, ready rfl (by decide), by decide, rfl, by decide, rfl⟩,
    ⟨ready rfl (by decide), by decide, ready rfl (by decide), rfl, rfl⟩,
    fun _ h => ⟨ready rfl (by decide : 0 + 1 ≤ 3 ∧ 3 ≤ 1024), rfl, ready rfl (by decide : 0 + 3 ≤ 3 ∧ 3 ≤ 1024), rfl,
      by revert h; decide +revert⟩⟩

/-- The standard luminance DC table (TB15). -/
def lumaTable : HuffTable :=
  ⟨[0, 1, 5, 1, 1, 1, 1, 1, 1, 0, 0, 0, 0, 0, 0, 0], canonicalCodes [0, 1, 5, 1, 1, 1, 1, 1, 1, 0, 0, 0, 0, 0, 0, 0],
    [0, 1, 2, 3, 4, 5, 6, 7, 8, 9, 10, 11]⟩

/-- A HUFFEXT at its start, on that table. -/
def extracting (bs : List Byte) : State :=
  { source .huffDc bs with jd := { (source .huffDc bs).jd with msx := 1, msy := 1, huff := ⟨some lumaTable, none, none, none⟩ } }

/-- BS8: the bits 011 give 2; BS10: 16 bits of 1 give no symbol. -/
theorem witness_HuffextFindsSymbol :
    (let s := extracting [0x60]
     s.schedule = [] ∧ s.jd.hx = ⟨0, s.jd.msk, s.jd.cur, 0, 0⟩ ∧
       s.jd.huff.get (s.jd.tableId s.jd.blk) false = some lumaTable ∧ ZeroOrOneHot s.jd.msk ∧ SourceReady s 1 ∧
       s.bitString 1 = some (byteBits 0x60) ∧
       (∀ i < 2, lumaTable.find i (BitVec.ofNat 16 (bitsVal ((byteBits 0x60).take (i + 1)))) = none) ∧
       lumaTable.find 2 (BitVec.ofNat 16 (bitsVal ((byteBits 0x60).take 3))) = some 2) ∧
    (let s := extracting [0xFF, 0x00, 0xFF, 0x00]
     SourceReady s 4 ∧ s.bitString 4 = some (List.replicate 16 true) ∧
       ∀ i < 16, lumaTable.find i (BitVec.ofNat 16 (bitsVal ((List.replicate 16 true).take (i + 1)))) = none) :=
  ⟨⟨rfl, rfl, rfl, rfl, ready rfl (by decide), by decide, by decide, by decide⟩, ready rfl (by decide), by decide, by decide⟩

theorem witness_ExtendIsSigned : (0 : Half).toNat < 2 ^ 1 ∧ (2047 : Half).toNat < 2 ^ 11 := by decide

/-- Block 0 is Y, block 2 is Cr; classes 1 and 11. -/
theorem witness_DcSymbols :
    let s := withTables (source (.symbolDc 11) [0x12, 0x34])
    let t : State := { s with jd := { s.jd with blk := 2 } }
    s.jd.quant.get (s.jd.qtid (s.jd.cmp s.jd.blk)) = some (flatQuant 16) ∧
    t.jd.quant.get (t.jd.qtid (t.jd.cmp t.jd.blk)) = some (flatQuant 16) ∧
    1 ≤ (1 : BitVec 4).toNat ∧ (11 : BitVec 4).toNat ≤ 11 ∧ ZeroOrOneHot s.jd.msk ∧ SourceReady s 2 ∧
    s.bitString 2 = some (byteBits 0x12 ++ byteBits 0x34) ∧
    (11 : BitVec 4).toNat ≤ (byteBits 0x12 ++ byteBits 0x34).length ∧
    s.jd.blk < s.jd.msx.toNat * s.jd.msy.toNat ∧ t.jd.blk = t.jd.msx.toNat * t.jd.msy.toNat + 1 :=
  ⟨rfl, rfl, by decide, by decide, rfl, ready rfl (by decide), by decide, by decide, by decide⟩

theorem witness_AcSymbolsWithoutBits :
    64 ≤ (atCoef 49 1 []).jd.coefIdx + (15 : BitVec 4).toNat ∧ (atCoef 48 1 []).jd.coefIdx + (15 : BitVec 4).toNat = 63 ∧
    (atCoef 47 1 []).jd.coefIdx + (15 : BitVec 4).toNat < 63 ∧ (15 : BitVec 4) ≠ 0 := by decide

theorem witness_AcCoefficient :
    let s := atCoef 48 1 [0x12, 0x34]
    s.jd.quant.get (s.jd.qtid (s.jd.cmp s.jd.blk)) = some (flatQuant 1) ∧
    s.jd.coefIdx + (15 : BitVec 4).toNat < 64 ∧ ZeroOrOneHot s.jd.msk ∧ SourceReady s 2 ∧
    s.bitString 2 = some (byteBits 0x12 ++ byteBits 0x34) ∧
    (11 : BitVec 4).toNat ≤ (byteBits 0x12 ++ byteBits 0x34).length :=
  ⟨rfl, by decide, rfl, ready rfl (by decide), by decide, by decide⟩

theorem witness_TransformStores :
    let s : State := { withTables (source .transform []) with jd := { (withTables (source .transform [])).jd with blk := 2 } }
    s.turn = (.jd, s) ∧ s.jd.mode = .transform ∧ Sampling s.jd ∧ s.jd.blk < s.jd.nby + 2 :=
  ⟨rfl, rfl, .inr (.inl ⟨rfl, rfl⟩), by decide⟩

/-- An MCU loop head of an 8 x 8 image. -/
def atMcu (x y : BitVec 17) (nrst rst : Half) : State :=
  let s := withTables (source .mcu [])
  { s with jd := { s.jd with loopX := x, loopY := y, nrst := nrst, rst := rst } }

theorem witness_McuLoop :
    (∀ x y nrst rst, (atMcu x y nrst rst).turn = (.jd, atMcu x y nrst rst)) ∧
    (atMcu 0 8 0 0).jd.height.toNat ≤ (atMcu 0 8 0 0).jd.loopY.toNat ∧
    (atMcu 8 7 0 0).jd.loopY.toNat < (atMcu 8 7 0 0).jd.height.toNat ∧
    (atMcu 8 7 0 0).jd.width.toNat ≤ (atMcu 8 7 0 0).jd.loopX.toNat ∧
    (atMcu 7 7 1 0).jd.loopX.toNat < (atMcu 7 7 1 0).jd.width.toNat ∧
    (atMcu 7 7 1 0).jd.nrst ≠ 0 ∧ (atMcu 7 7 1 0).jd.rst ≠ (atMcu 7 7 1 0).jd.nrst ∧
    (atMcu 7 7 1 1).jd.rst = (atMcu 7 7 1 1).jd.nrst :=
  ⟨fun _ _ _ _ => rfl, by decide⟩

/-- The corner MCU of a 17 x 32 image in 4:2:0: one column is cut off, no row. -/
def corner : Jd := { fresh.jd with msx := 2, msy := 2, width := 17, height := 32, loopX := 16, loopY := 16 }

theorem witness_TileIsInsideImage :
    Sampling corner ∧ corner.nby ≠ 0 ∧ corner.loopX.toNat < corner.width.toNat ∧
    corner.loopY.toNat < corner.height.toNat := ⟨.inr (.inr (.inr ⟨rfl, rfl⟩)), by decide⟩

theorem witness_TileIsPutOut :
    let s : State := withTables (source .output [])
    s.turn = (.jd, s) ∧ s.jd.mode = .output ∧ Sampling s.jd := ⟨rfl, rfl, .inr (.inl ⟨rfl, rfl⟩)⟩

theorem witness_TilesCoverImage : Sampling corner ∧ corner.nby ≠ 0 := ⟨.inr (.inr (.inr ⟨rfl, rfl⟩)), by decide⟩

/-- The last pixel of a 4:2:0 MCU and of a 4:4:4 MCU: block 3, chroma sample 63; block 0. -/
theorem witness_PixelColour :
    Sampling corner ∧ corner.nby ≠ 0 ∧ 15 < 8 * corner.msx.toNat ∧ 15 < 8 * corner.msy.toNat ∧
    (3 : Fin 6).val = 15 / 8 + corner.msx.toNat * (15 / 8) ∧ (4 : Fin 6).val = corner.msx.toNat * corner.msy.toNat ∧
    (63 : Fin 64).val = 8 * (15 % 8) + 15 % 8 ∧
    (63 : Fin 64).val = 8 * (15 >>> (corner.msy.toNat - 1)) + 15 >>> (corner.msx.toNat - 1) ∧
    (let j := (withTables fresh).jd
     Sampling j ∧ j.nby ≠ 0 ∧ 7 < 8 * j.msx.toNat ∧ (0 : Fin 6).val = 7 / 8 + j.msx.toNat * (7 / 8) ∧
       (63 : Fin 64).val = 8 * (7 >>> (j.msy.toNat - 1)) + 7 >>> (j.msx.toNat - 1)) :=
  ⟨.inr (.inr (.inr ⟨rfl, rfl⟩)), by decide, by decide, by decide, rfl, rfl, rfl, rfl, .inr (.inl ⟨rfl, rfl⟩), by decide⟩

theorem witness_TileAnswer :
    (let s : State := { source .tile [] with schedule := [.jd] }
     s.turn = (.jd, source .tile []) ∧ s.jd.mode = .tile) ∧
    (let s := given (.tileAnswer true) (source .tile [])
     s.turn = (.env, s) ∧ s.inputs = [.tileAnswer true] ∧ s.jd.mode = .tile) ∧
    (let s := given (.tileAnswer false) fresh
     s.turn = (.env, s) ∧ s.jd.mode ≠ .tile) := ⟨⟨rfl, rfl⟩, ⟨rfl, rfl, rfl⟩, rfl, by decide⟩

/-- TXP's turn with these things waiting. -/
def sending (busy : Bool) (acks : Byte) (frag : Bool) : State :=
  { fresh with
    txp := ⟨busy, []⟩, rx := { fresh.rx with ackPend := acks }
    txc := { fresh.txc with fragBusy := frag, fragS := 246, fragK := 1 } }

theorem witness_TransmitPort :
    (∀ busy acks frag, ({ sending busy acks frag with schedule := [.txp] } : State).turn = (.txp, sending busy acks frag)) ∧
    (sending true 1 true).txp.busy = true ∧ (sending false 0 true).txp.busy = false ∧
    (sending false 255 true).rx.ackPend ≠ 0 ∧ (sending false 0 true).rx.ackPend = 0 ∧
    (sending false 255 true).txc.fragBusy = true ∧ (sending false 0 false).txc.fragBusy = false :=
  ⟨fun _ _ _ => rfl, by decide⟩

theorem witness_StopAndWait : ∃ t, step (sending false 1 false) = .next t := ⟨_, rfl⟩

/-- 62,720 bytes behind a header of 36, in a buffer that holds exactly that. -/
theorem witness_FragmentsReassemble :
    let s : State := { fresh with
      params := { params with rxBufSize := 62756 }
      rx := { fresh.rx with hdrLen := 36 }
      inputs := ((List.range ((62720 + 244) / 245)).map fun k => .radio (fragDatagram true 62720 k fun _ => 7)) ++ []
      schedule := List.replicate ((62720 + 244) / 245) .env ++ [] }
    MemInv s ∧ 1 ≤ 62720 ∧ 62720 ≤ 62720 ∧ s.rx.hdrLen.toNat + 62720 ≤ s.params.rxBufSize ∧
    s.inputs = ((List.range ((62720 + 244) / 245)).map fun k => .radio (fragDatagram true 62720 k fun _ => 7)) ++ [] ∧
    s.schedule = List.replicate ((62720 + 244) / 245) .env ++ [] :=
  ⟨⟨List.Pairwise.nil, List.Pairwise.nil, List.Pairwise.nil⟩, by decide, by decide, by decide, rfl, rfl⟩

/-- The watchdog count of a TICK's clauses: T_INIT is 3. -/
theorem witness_CompletionAndTick :
    (given .txdone (sending true 0 false)).turn = (.env, given .txdone (sending true 0 false)) ∧
    (sending true 0 false).txp.busy = true ∧ fresh.txp.busy = false ∧
    (given .tick fresh).turn = (.env, given .tick fresh) ∧ fresh.txc.firstAck = false ∧ fresh.txc.captureWait = false ∧
    ((1 : Word) + 1).toNat < fresh.params.tInit.toNat ∧ fresh.params.tInit.toNat ≤ ((2 : Word) + 1).toNat :=
  ⟨rfl, rfl, rfl, rfl, rfl, rfl, by decide, by decide⟩

theorem witness_ResetInput :
    (given .reset fresh).turn = (.env, given .reset fresh) ∧ (given .reset fresh).inputs = [.reset] := ⟨rfl, rfl⟩

theorem witness_RegisterAccess :
    (∀ i, (given i fresh).turn = (.env, given i fresh)) ∧ (4 = 4 ∧ 0xFC % 4 = 0 ∧ 0xFC < 256) ∧
    ¬ (4 = 4 ∧ 0x02 % 4 = 0 ∧ 0x02 < 256) ∧ ¬ (4 = 4 ∧ 256 % 4 = 0 ∧ 256 < 256) ∧
    (0xFFFFFFFC : Word).getLsbD 0 = false ∧ (0xFFFFFFFC : Word).getLsbD 1 = false ∧
    0x44 ∉ [0x00, 0x40, 0x80, 0x90, 0x94, 0xC0, 0xC4] :=
  ⟨fun _ => rfl, by decide⟩

theorem witness_BufferBytes :
    ((source .mcu [1]).rxbuf false).wf ∧ (source .mcu [1]).jd.busy = true ∧ (source .mcu [1]).oldValues 0 = [] ∧
    fresh.txsrc.wf := ⟨by decide, rfl, rfl, by decide⟩

theorem witness_DecoderTouchesOnlyItself :
    let s := source .soi [0xFF, 0xD8]
    s.turn.1 = .jd ∧ ∃ t, step s = .next t := ⟨rfl, _, rfl⟩

theorem witness_ParametersAndFirstAckStay :
    let s := given .tick { fresh with txc := { fresh.txc with firstAck := true } }
    s.txc.firstAck = true ∧ ∃ t, step s = .next t := ⟨rfl, _, rfl⟩

theorem witness_MemoryStaysCanonical : MemInv (given .tick fresh) ∧ ∃ t, step (given .tick fresh) = .next t :=
  ⟨⟨List.Pairwise.nil, List.Pairwise.nil, List.Pairwise.nil⟩, _, rfl⟩

theorem params_legal : params.Legal := by decide

theorem witness_LinkInvariants :
    CreditInv fresh ∧ WatchdogInv fresh ∧ FragInv (sending false 0 true) ∧ RxInv fresh ∧ ∃ t, step fresh = .next t :=
  ⟨⟨params_legal, by decide, fun h => absurd h (by decide)⟩, ⟨params_legal, by decide⟩, fun _ => by decide,
    ⟨by decide, fun b => by cases b <;> decide, fun h => absurd h (by decide)⟩, _, rfl⟩

/-- DECOMP at the loop head of an 8 x 8 image, with every table. -/
theorem decoding_inv : JdInv (atMcu 0 0 0 0) where
  frameLen := fun b => by cases b <;> decide
  srcLen := by decide
  srcPos := by decide
  busy := by decide
  phase := rfl
  result := by decide
  used := by decide
  sampling := .inr (.inl ⟨rfl, rfl⟩)
  prepared := fun h => absurd h (by decide)
  decoding := fun _ => ⟨by decide, by decide, by decide, fun id cls => by cases id <;> cases cls <;> rfl,
    fun cmp => by
      have h : (atMcu 0 0 0 0).jd.qtid cmp = 0 := by unfold Jd.qtid; split <;> [rfl; (split <;> rfl)]
      rw [h]
      rfl⟩
  dcValues := fun id t h => by
    have e : dcTable = t := by cases id <;> exact Option.some.inj h
    subst e
    decide
  dcSymbol := fun b h => by cases h
  block := fun h => absurd rfl h.1.2
  coef := fun h => by rcases h with h | ⟨b, h⟩ <;> cases h
  masks := ⟨rfl, rfl⟩
  corner := fun h => absurd rfl h.2

theorem witness_DecoderInvariant : JdInv (atMcu 0 0 0 0) ∧ ∃ t, step (atMcu 0 0 0 0) = .next t := ⟨decoding_inv, _, rfl⟩

theorem witness_ResetMeetsInvariants : params.Legal := params_legal

theorem witness_StepsAreSafe : JdInv (atMcu 0 0 0 0) := decoding_inv

end Sys2Proof.Tests
end

section
/-! PROOFS of the statements about the scope of the model: what a move of JD writes, that the parameters
and FIRST_ACK stay over every step (R6, R267), and that a reset meets the invariants (R330). -/

namespace Sys2Proof.Machine

/-! The frame of JD: a part of a JD command writes the JD unit and counts free choices. -/

/-- `t` differs from `s` in the JD unit and in the count of free choices only. -/
structure JdOnly (s t : State) : Prop where
  frame : t = { s with jd := t.jd, draws := t.draws }

theorem JdOnly.refl (s : State) : JdOnly s s := ⟨rfl⟩

theorem JdOnly.trans {s t u : State} (h : JdOnly s t) (h' : JdOnly t u) : JdOnly s u :=
  ⟨by rw [h'.frame, h.frame]⟩

theorem JdOnly.setJd (s : State) (j : Jd) : JdOnly s (s.setJd j) := ⟨rfl⟩

theorem Reads.jdOnly {s t : State} (h : Reads s t) : JdOnly s t := ⟨by rw [h.frame]⟩

/-- A part of a JD command that stays in the JD unit, whether it goes on or raises. -/
def Res.StaysInJd {α : Type} (x : Res α) (s : State) : Prop :=
  match x with
  | .ok _ t => JdOnly s t
  | .ends _ t => JdOnly s t
  | .fault _ => True

section
variable {α β : Type}

theorem JdOnly.ok {s t : State} (h : JdOnly s t) {a : α} : (Res.ok a t).StaysInJd s := h

theorem JdOnly.ends {s t : State} (h : JdOnly s t) {r : ResultCode} : (Res.ends r t : Res α).StaysInJd s := h

theorem Res.StaysInJd.bind {x : Res α} {k : α → State → Res β} {s : State} (h : x.StaysInJd s)
    (hk : ∀ a t, (k a t).StaysInJd t) : (x.bind k).StaysInJd s := by
  cases x with
  | ok a t =>
    have ht : JdOnly s t := h
    have hkt := hk a t
    rw [Res.bind_ok]
    cases hx : k a t with
    | ok b u => rw [hx] at hkt; exact ht.trans hkt
    | ends r u => rw [hx] at hkt; exact ht.trans hkt
    | fault f => trivial
  | ends r t => exact h
  | fault f => trivial

theorem Res.ReadsOnly.staysInJd {x : Res α} {s : State} (h : x.ReadsOnly s) : x.StaysInJd s := by
  cases x with
  | ok a t => exact Reads.jdOnly h
  | ends r t => exact Reads.jdOnly h.2
  | fault f => trivial

end

/-! The parts of the marker segments (R123 to R133). -/

theorem nextMarker_staysInJd (s : State) : (nextMarker s).StaysInJd s := JdOnly.setJd s _

theorem withSegment_staysInJd (lseg : Half) {k : Nat → State → Res Unit} (hk : ∀ n t, (k n t).StaysInJd t) (s : State) :
    (withSegment lseg k s).StaysInJd s := by
  unfold withSegment
  split
  · exact JdOnly.refl s
  · exact hk _ s

theorem withBody_staysInJd (lseg : Half) {k : List Byte → State → Res Unit} (hk : ∀ seg t, (k seg t).StaysInJd t)
    (s : State) : (withBody lseg k s).StaysInJd s := by
  refine withSegment_staysInJd lseg (fun len t => ?_) s
  split
  · exact JdOnly.refl t
  · exact (readBytes_readsOnly len t).staysInJd.bind hk

theorem rejectSegment_staysInJd (lseg : Half) (s : State) : (rejectSegment lseg s).StaysInJd s :=
  withSegment_staysInJd lseg (fun _ t => (JdOnly.refl t).ends) s

theorem allocOrMem1_staysInJd (n : Nat) (s : State) : (allocOrMem1 n s).StaysInJd s := by
  unfold allocOrMem1
  split
  · rename_i t h
    rw [(alloc_some h).1]
    exact JdOnly.setJd s _
  · exact JdOnly.refl s

theorem sof0Body_staysInJd (seg : List Byte) (s : State) : (sof0Body seg s).StaysInJd s := by
  unfold sof0Body
  simp only [State.setJd_setJd, State.setJd_jd]
  split_ifs
  · exact JdOnly.refl s
  all_goals exact JdOnly.setJd s _

theorem driBody_staysInJd (seg : List Byte) (s : State) : (driBody seg s).StaysInJd s := by
  unfold driBody
  split <;> exact ⟨rfl⟩

theorem dhtTable_staysInJd (seg : List Byte) (s : State) : (dhtTable seg s).StaysInJd s := by
  unfold dhtTable
  dsimp only
  split
  · exact JdOnly.refl s
  split
  · exact JdOnly.refl s
  refine (allocOrMem1_staysInJd _ s).bind fun _ t => (allocOrMem1_staysInJd _ t).bind fun _ u => ?_
  split
  · exact JdOnly.refl u
  refine (allocOrMem1_staysInJd _ u).bind fun _ v => ?_
  split
  · exact JdOnly.refl v
  · exact JdOnly.setJd v _

theorem dqtTable_staysInJd (seg : List Byte) (s : State) : (dqtTable seg s).StaysInJd s := by
  unfold dqtTable
  dsimp only
  split_ifs
  · exact JdOnly.refl s
  · exact JdOnly.refl s
  · exact JdOnly.refl s
  · exact (allocOrMem1_staysInJd _ s).bind fun _ t => JdOnly.setJd t _

theorem tableLoop_staysInJd {table : List Byte → State → Res (List Byte)} (ht : ∀ seg t, (table seg t).StaysInJd t)
    (n : Nat) (seg : List Byte) (s : State) : (tableLoop table n seg s).StaysInJd s := by
  induction n generalizing seg s with
  | zero => exact JdOnly.refl s
  | succ n ih =>
    unfold tableLoop
    split
    · exact JdOnly.refl s
    · exact (ht seg s).bind fun rest t => ih rest t

theorem dhtBody_staysInJd (seg : List Byte) (s : State) : (dhtBody seg s).StaysInJd s :=
  (tableLoop_staysInJd dhtTable_staysInJd _ seg s).bind fun _ t => nextMarker_staysInJd t

theorem dqtBody_staysInJd (seg : List Byte) (s : State) : (dqtBody seg s).StaysInJd s :=
  (tableLoop_staysInJd dqtTable_staysInJd _ seg s).bind fun _ t => nextMarker_staysInJd t

theorem sosBody_staysInJd (seg : List Byte) (s : State) : (sosBody seg s).StaysInJd s := by
  unfold sosBody
  split <;> exact ⟨rfl⟩

/-! The parts of the block decoder and of the MCU loop (R152, R153, R170 to R176, R202). -/

theorem bitext_staysInJd (n : Nat) (s : State) : (bitext n s).StaysInJd s :=
  (bitextLoop_readsOnly n _ _ _ s).staysInJd.bind fun _ t => JdOnly.setJd t _

theorem blockQuant_staysInJd (s : State) : (blockQuant s).StaysInJd s := by
  unfold blockQuant
  split
  · exact JdOnly.refl s
  · trivial

theorem acRun_staysInJd (rrrr : BitVec 4) (s : State) : (acRun rrrr s).StaysInJd s := by
  unfold acRun
  split <;> exact ⟨rfl⟩

theorem acNext_jdOnly (s : State) : JdOnly s (acNext s) := by
  unfold acNext
  split <;> exact ⟨rfl⟩

theorem mcuStep_staysInJd (s : State) : (mcuStep s).StaysInJd s := by
  unfold mcuStep
  dsimp only
  split_ifs <;> exact ⟨rfl⟩

theorem huffBit_staysInJd (t : HuffTable) (found : Byte → JdMode) (s : State) : (huffBit t found s).StaysInJd s := by
  unfold huffBit
  dsimp only
  split
  · exact JdOnly.setJd s _
  · split <;> exact ⟨rfl⟩

theorem transformStep_jdOnly (s : State) : JdOnly s (transformStep s) := by
  unfold transformStep
  dsimp only
  split <;> exact ⟨rfl⟩

/-! What a move of JD is: it goes on, ends its command (R305), or puts out a tile (R209). -/

/-- What a move of JD from `s` leads to. -/
inductive JdMove (s : State) : State → Prop where
  | goesOn {t : State} (h : JdOnly s t) : JdMove s t
  | ends {u : State} (r : ResultCode) (h : JdOnly s u) : JdMove s (endCommand r u)
  | putsOut : JdMove s (outputStep s)

theorem Res.StaysInJd.finish {x : Res Unit} {s t : State} (hx : x.StaysInJd s) (h : x.finish = .next t) : JdMove s t := by
  cases x with
  | ok a u => cases h; exact .goesOn hx
  | ends r u => cases h; exact .ends r hx
  | fault f => cases h

/-- The ports at which JD decodes its source and its symbols. -/
def decodedByJd : Port → Bool
  | .radio => false
  | .reg _ => false
  | .soi => true
  | .header => true
  | .entropy => true
  | .restart => true
  | .dcSymbol => true
  | .acSymbol => true

/-- An instruction that JD decodes makes a move of JD. -/
theorem exec_jdMove {i : Instr} {s t : State} (hp : decodedByJd (portOf i) = true) (h : exec i s = .next t) : JdMove s t := by
  cases i with
  | mkSoi => exact (nextMarker_staysInJd s).finish h
  | mkSof0 lseg => exact (withBody_staysInJd lseg sof0Body_staysInJd s).finish h
  | mkDht lseg => exact (withBody_staysInJd lseg dhtBody_staysInJd s).finish h
  | mkDqt lseg => exact (withBody_staysInJd lseg dqtBody_staysInJd s).finish h
  | mkDri lseg => exact (withBody_staysInJd lseg driBody_staysInJd s).finish h
  | mkSos lseg => exact (withBody_staysInJd lseg sosBody_staysInJd s).finish h
  | mkSof1Reject lseg | mkSof2Reject lseg | mkSof3Reject lseg | mkSof5Reject lseg | mkSof6Reject lseg | mkSof7Reject lseg
  | mkSof9Reject lseg | mkSof10Reject lseg | mkSof11Reject lseg | mkSof13Reject lseg | mkSof14Reject lseg
  | mkSof15Reject lseg | mkEoiReject lseg => exact (rejectSegment_staysInJd lseg s).finish h
  | mkRstn n =>
    change execMkRstn n s = .next t at h
    unfold execMkRstn at h
    split at h
    · cases h; exact .goesOn (JdOnly.setJd s _)
    · cases h; exact .ends .fmt1 (JdOnly.refl s)
  | mkOther c lseg =>
    refine Res.StaysInJd.finish (withSegment_staysInJd lseg (fun len t => ?_) s) h
    exact (skipBytes_readsOnly len t).staysInJd.bind fun _ u => nextMarker_staysInJd u
  | edStuffedFF => cases h; exact .goesOn (JdOnly.setJd s _)
  | edMarkerInData xx => cases h; exact .ends .fmt1 (JdOnly.refl s)
  | dcClass0 => exact ((blockQuant_staysInJd s).bind fun _ t => (JdOnly.setJd t _).ok).finish h
  | dcClass ssss =>
    refine Res.StaysInJd.finish ((blockQuant_staysInJd s).bind fun _ t => ?_) h
    exact (bitext_staysInJd _ t).bind fun _ u => JdOnly.setJd u _
  | acEob => cases h; exact .goesOn (JdOnly.setJd s _)
  | acZrl => exact ((acRun_staysInJd 15 s).bind fun _ t => (acNext_jdOnly t).ok).finish h
  | acRunSkip rrrr => exact ((acRun_staysInJd rrrr s).bind fun _ t => (acNext_jdOnly t).ok).finish h
  | acRunSize rrrr ssss =>
    refine Res.StaysInJd.finish ((acRun_staysInJd rrrr s).bind fun _ t => (blockQuant_staysInJd t).bind fun _ u => ?_) h
    exact (bitext_staysInJd _ u).bind fun _ v => (JdOnly.setJd v _).trans (acNext_jdOnly _)
  | acBadClass rrrr ssss => exact ((acRun_staysInJd rrrr s).bind fun _ t => (JdOnly.refl t).ends).finish h
  | _ => cases hp

/-- JD has found an instruction behind some source reads, or has moved. -/
def Fetched.StaysInJd (x : Fetched) (s : State) : Prop :=
  match x with
  | .run _ t => JdOnly s t
  | .moved t => JdMove s t
  | .fault _ => True
  | .refused _ => True

theorem Res.StaysInJd.moved {x : Res Unit} {s : State} (h : x.StaysInJd s) : x.moved.StaysInJd s := by
  cases x with
  | ok a t => exact .goesOn h
  | ends r t => exact .ends r h
  | fault f => trivial

theorem fetchMarker_staysInJd (port : Port) (n : Nat) (s : State) : (fetchMarker port n s).StaysInJd s := by
  unfold fetchMarker
  have h := (readBytes_readsOnly n s).staysInJd
  revert h
  cases readBytes n s with
  | ok bs t =>
    intro h
    rw [Res.bind_ok]
    split
    · exact h
    · exact .ends .fmt1 h
  | ends r t => exact fun h => .ends r h
  | fault f => exact fun _ => trivial

theorem fetchEntropy_staysInJd (s : State) : (fetchEntropy s).StaysInJd s := by
  unfold fetchEntropy
  have h := (needByte_readsOnly s).staysInJd
  revert h
  cases needByte s with
  | ends r t => exact fun h => .ends r h
  | fault f => exact fun _ => trivial
  | ok b t =>
    intro h
    have ht : JdOnly s t := h
    rw [Res.bind_ok]
    split
    · have h' := (needByte_readsOnly t).staysInJd
      revert h'
      cases needByte t with
      | ends r u => exact fun h' => .ends r (ht.trans h')
      | fault f => exact fun _ => trivial
      | ok c u =>
        intro h'
        rw [Res.bind_ok]
        split
        · exact ht.trans h'
        · exact .ends .fmt1 (ht.trans h')
    · exact .goesOn (ht.trans (JdOnly.setJd t _))

theorem huffStep_staysInJd (cls : Bool) (found : Byte → JdMode) (s : State) : (huffStep cls found s).StaysInJd s := by
  unfold huffStep
  split
  · exact fetchEntropy_staysInJd s
  · split
    · exact (huffBit_staysInJd _ found s).moved
    · trivial

theorem fetchSymbol_staysInJd (port : Port) (b : Byte) (s : State) : (fetchSymbol port b s).StaysInJd s := by
  unfold fetchSymbol
  split
  · exact JdOnly.refl s
  · trivial

/-- What JD does in its turn, by the place of its command. -/
theorem jdFetch_staysInJd (s : State) : (jdFetch s).StaysInJd s := by
  unfold jdFetch
  cases s.jd.mode with
  | idle => exact .goesOn (JdOnly.refl s)
  | soi => exact fetchMarker_staysInJd _ _ s
  | marker => exact fetchMarker_staysInJd _ _ s
  | mcu => exact (mcuStep_staysInJd s).moved
  | restart => exact fetchMarker_staysInJd _ _ s
  | huffDc => exact huffStep_staysInJd _ _ s
  | huffAc => exact huffStep_staysInJd _ _ s
  | symbolDc b => exact fetchSymbol_staysInJd _ _ s
  | symbolAc b => exact fetchSymbol_staysInJd _ _ s
  | transform => exact .goesOn (transformStep_jdOnly s)
  | output => exact .putsOut
  | tile => exact .goesOn (JdOnly.refl s)

/-! The parameters, FIRST_ACK and the number of the reset. -/

/-- The parameters and the number of the reset stay, and FIRST_ACK does not fall (R6, R267). -/
structure KeepsSettings (s t : State) : Prop where
  params : t.params = s.params
  epoch : t.epoch = s.epoch
  firstAck : s.txc.firstAck = true → t.txc.firstAck = true

theorem KeepsSettings.refl (s : State) : KeepsSettings s s := ⟨rfl, rfl, id⟩

theorem KeepsSettings.trans {s t u : State} (h : KeepsSettings s t) (h' : KeepsSettings t u) : KeepsSettings s u :=
  ⟨h'.params.trans h.params, h'.epoch.trans h.epoch, fun hs => h'.firstAck (h.firstAck hs)⟩

theorem JdOnly.keepsSettings {s t : State} (h : JdOnly s t) : KeepsSettings s t := by
  rw [h.frame]
  exact ⟨rfl, rfl, id⟩

theorem endCommand_keepsSettings (r : ResultCode) (s : State) : KeepsSettings s (endCommand r s) := ⟨rfl, rfl, id⟩

theorem JdMove.keepsSettings {s t : State} (h : JdMove s t) : KeepsSettings s t := by
  cases h with
  | goesOn h => exact h.keepsSettings
  | ends r h => exact h.keepsSettings.trans (endCommand_keepsSettings r _)
  | putsOut => exact ⟨rfl, rfl, id⟩

/-! RX and the camera write their memories. -/

theorem rxWriteBytes_keepsSettings (b : Bool) (a : Nat) (vs : List Byte) (s : State) :
    KeepsSettings s (rxWriteBytes b a vs s) := by
  rw [rxWriteBytes_frame]
  exact ⟨by simp, by simp, by simp⟩

theorem cameraWrite_keepsSettings (a : Nat) (vs : List Byte) (s : State) : KeepsSettings s (cameraWrite a vs s) := by
  rw [cameraWrite_frame]
  exact ⟨rfl, rfl, id⟩

theorem dropDatagram_keepsSettings (r : DropReason) (s : State) : KeepsSettings s (dropDatagram r s) := ⟨rfl, rfl, id⟩

theorem completeHeader_keepsSettings (off size : Nat) (s : State) : KeepsSettings s (completeHeader off size s) :=
  (rxWriteBytes_keepsSettings _ _ _ s).trans ⟨rfl, rfl, id⟩

theorem completeFrame_keepsSettings (off size : Nat) (s : State) : KeepsSettings s (completeFrame off size s) := by
  unfold completeFrame
  dsimp only
  split <;> exact ⟨rfl, rfl, id⟩

theorem placeFragment_keepsSettings (base : Nat) {complete : Nat → Nat → State → State}
    (hc : ∀ off size t, KeepsSettings t (complete off size t)) (p : Packet) (s : State) :
    KeepsSettings s (placeFragment base complete p s) := by
  unfold placeFragment
  split
  · exact dropDatagram_keepsSettings _ s
  · dsimp only
    split_ifs
    · exact dropDatagram_keepsSettings _ s
    · exact dropDatagram_keepsSettings _ s
    · exact dropDatagram_keepsSettings _ s
    · exact (rxWriteBytes_keepsSettings _ _ _ s).trans (hc _ _ _)
    · exact rxWriteBytes_keepsSettings _ _ _ s

theorem passThrough_keepsSettings (t : Byte) (p : Packet) (s : State) : KeepsSettings s (passThrough t p s) := by
  unfold passThrough
  split
  · exact dropDatagram_keepsSettings _ s
  · exact ⟨rfl, rfl, id⟩

/-! The credit, the watchdog and the transmit port. -/

theorem release_keepsSettings (s : State) : KeepsSettings s (release s) := by
  rw [release_frame]
  exact ⟨rfl, rfl, id⟩

/-- An ACK sets FIRST_ACK (R263). -/
theorem txcAck_keepsSettings (s : State) : KeepsSettings s (txcAck s) := by
  refine KeepsSettings.trans ?_ (release_keepsSettings _)
  exact ⟨rfl, rfl, fun _ => rfl⟩

theorem tick_keepsSettings (s : State) : KeepsSettings s (tick s) := by
  unfold tick
  dsimp only
  split
  · refine KeepsSettings.trans ?_ (release_keepsSettings _)
    exact ⟨rfl, rfl, id⟩
  · exact ⟨rfl, rfl, id⟩

theorem txDone_keepsSettings (s : State) : KeepsSettings s (txDone s) := by
  unfold txDone
  split <;> exact ⟨rfl, rfl, id⟩

theorem sendAck_keepsSettings (s : State) : KeepsSettings s (sendAck s) := ⟨rfl, rfl, id⟩

theorem sendFragment_keepsSettings (s : State) : KeepsSettings s (sendFragment s) := by
  unfold sendFragment
  dsimp only
  split <;> exact ⟨rfl, rfl, id⟩

theorem txpStep_keepsSettings (s : State) : KeepsSettings s (txpStep s) := by
  have hdraw : KeepsSettings s s.draw := ⟨rfl, rfl, id⟩
  unfold txpStep
  split_ifs
  · exact sendFragment_keepsSettings s
  · exact hdraw.trans (sendAck_keepsSettings _)
  · exact hdraw.trans (sendFragment_keepsSettings _)
  · exact sendAck_keepsSettings s

/-! The host's commands and plain writes, and the tile answer. -/

theorem acceptCommand_keepsSettings (s : State) : KeepsSettings s (acceptCommand s) := ⟨rfl, rfl, id⟩

theorem jdCommand_keepsSettings {run : State → State} (hr : ∀ u, KeepsSettings u (run u)) {s t : State}
    (h : jdCommand run s = .next t) : KeepsSettings s t := by
  unfold jdCommand at h
  split at h
  · cases h; exact ⟨rfl, rfl, id⟩
  · cases h; exact (acceptCommand_keepsSettings s).trans (hr _)

theorem prepareInit_keepsSettings (b : Bool) (s : State) : KeepsSettings s (prepareInit b s) := ⟨rfl, rfl, id⟩

theorem decompStart_keepsSettings (s : State) : KeepsSettings s (decompStart s) := by
  unfold decompStart
  split <;> exact ⟨rfl, rfl, id⟩

theorem take_keepsSettings (s : State) : KeepsSettings s (take s) := by
  unfold take
  split <;> exact ⟨rfl, rfl, id⟩

theorem clrSticky_keepsSettings (s : State) : KeepsSettings s (clrSticky s) := ⟨rfl, rfl, id⟩

theorem regWrite_keepsSettings (off : Nat) (w : Word) (s : State) : KeepsSettings s (regWrite off w s) := by
  unfold regWrite
  split_ifs <;> exact ⟨rfl, rfl, id⟩

theorem answerTile_keepsSettings (accept : Bool) (s : State) : KeepsSettings s (answerTile accept s) := by
  unfold answerTile
  split_ifs <;> exact ⟨rfl, rfl, id⟩

/-- No instruction changes the parameters or the number of the reset, and none takes FIRST_ACK away. -/
theorem exec_keepsSettings {i : Instr} {s t : State} (h : exec i s = .next t) : KeepsSettings s t := by
  cases i with
  | pktAck p =>
    cases h
    split
    · exact dropDatagram_keepsSettings _ s
    · exact txcAck_keepsSettings s
  | pktInitialHeaderData p => cases h; exact placeFragment_keepsSettings _ completeHeader_keepsSettings p s
  | pktFrameData p => cases h; exact placeFragment_keepsSettings _ completeFrame_keepsSettings p s
  | pktNak p | pktTelemetry p | pktPing p | pktSwitchChannel p | pktTxPowerUpdate p | pktEnableLed p =>
    cases h; exact passThrough_keepsSettings _ p s
  | pktUnknown type p => cases h; exact dropDatagram_keepsSettings _ s
  | jdNop buf => cases h; exact KeepsSettings.refl s
  | jdPrepare buf => exact jdCommand_keepsSettings (prepareInit_keepsSettings buf) h
  | jdDecomp buf => exact jdCommand_keepsSettings decompStart_keepsSettings h
  | jdReserved buf => cases h; exact ⟨rfl, rfl, id⟩
  | rxTake clr =>
    cases h
    split
    · exact (take_keepsSettings s).trans (clrSticky_keepsSettings _)
    · exact take_keepsSettings s
  | rxClrSticky => cases h; exact clrSticky_keepsSettings s
  | txcCaptureReq =>
    change execTxcCaptureReq s = .next t at h
    unfold execTxcCaptureReq at h
    split_ifs at h <;> cases h <;> exact ⟨rfl, rfl, id⟩
  | txcFragStart frame =>
    change execTxcFragStart frame s = .next t at h
    unfold execTxcFragStart at h
    dsimp only at h
    split_ifs at h <;> cases h <;> exact ⟨rfl, rfl, id⟩
  | intW1c clear => cases h; exact ⟨rfl, rfl, id⟩
  | _ => exact (exec_jdMove rfl h).keepsSettings

/-! The step: only a reset does not keep the settings. -/

/-- What is found to do has kept the settings so far, or is a reset. -/
def Fetched.KeepsOrResets (x : Fetched) (s : State) : Prop :=
  match x with
  | .run _ t => KeepsSettings s t
  | .moved t => KeepsSettings s t ∨ ∃ u, KeepsSettings s u ∧ t = hwReset u
  | .fault _ => True
  | .refused _ => True

theorem Fetched.KeepsOrResets.of_keepsSettings {x : Fetched} {s t : State} (h : KeepsSettings s t)
    (hx : x.KeepsOrResets t) : x.KeepsOrResets s := by
  cases x with
  | run i u => exact h.trans hx
  | moved u =>
    rcases hx with hx | ⟨v, hv, rfl⟩
    · exact .inl (h.trans hx)
    · exact .inr ⟨v, h.trans hv, rfl⟩
  | fault f => trivial
  | refused r => trivial

theorem Fetched.StaysInJd.keepsOrResets {x : Fetched} {s : State} (h : x.StaysInJd s) : x.KeepsOrResets s := by
  cases x with
  | run i t => exact JdOnly.keepsSettings h
  | moved t => exact .inl (JdMove.keepsSettings h)
  | fault f => trivial
  | refused r => trivial

theorem radioFetch_keepsOrResets (d : List Byte) (s : State) : (radioFetch d s).KeepsOrResets s := by
  unfold radioFetch
  split
  · exact KeepsSettings.refl s
  · exact .inl (dropDatagram_keepsSettings _ s)
  · exact .inl (dropDatagram_keepsSettings _ s)

theorem writeFetch_keepsOrResets (off n : Nat) (w : Word) (s : State) : (writeFetch off n w s).KeepsOrResets s := by
  unfold writeFetch
  split
  · split
    · exact KeepsSettings.refl s
    · exact .inl (regWrite_keepsSettings off w s)
  · trivial

theorem inputFetch_keepsOrResets (i : Input) (s : State) : (inputFetch i s).KeepsOrResets s := by
  cases i with
  | radio d => exact radioFetch_keepsOrResets d s
  | regWrite off n w => exact writeFetch_keepsOrResets off n w s
  | regRead off n =>
    unfold inputFetch
    dsimp only
    split
    · exact .inl ⟨rfl, rfl, id⟩
    · trivial
  | tileAnswer accept => exact .inl (answerTile_keepsSettings accept s)
  | txdone => exact .inl (txDone_keepsSettings s)
  | tick => exact .inl (tick_keepsSettings s)
  | camera a bytes => exact .inl (cameraWrite_keepsSettings a bytes s)
  | reset => exact .inr ⟨s, KeepsSettings.refl s, rfl⟩

theorem turnFetch_keepsOrResets (turn : Turn) (s : State) : (turnFetch turn s).KeepsOrResets s := by
  cases turn with
  | env =>
    unfold turnFetch envFetch
    dsimp only
    split
    · exact .inl (KeepsSettings.refl s)
    · refine Fetched.KeepsOrResets.of_keepsSettings ?_ (inputFetch_keepsOrResets _ _)
      exact ⟨rfl, rfl, id⟩
  | jd => exact (jdFetch_staysInJd s).keepsOrResets
  | txp =>
    unfold turnFetch txpFetch
    dsimp only
    split
    · exact .inl (txpStep_keepsSettings s)
    · exact .inl (KeepsSettings.refl s)

theorem State.turn_keepsSettings (s : State) : KeepsSettings s s.turn.2 := by
  unfold State.turn
  split <;> exact ⟨rfl, rfl, id⟩

/-- A step keeps the settings, or is the reset of a state that has them (R331). -/
theorem step_keepsSettings {s t : State} (h : step s = .next t) :
    KeepsSettings s t ∨ ∃ u, KeepsSettings s u ∧ t = hwReset u := by
  have hf : (fetch s).KeepsOrResets s := (turnFetch_keepsOrResets _ _).of_keepsSettings s.turn_keepsSettings
  unfold step at h
  cases hx : fetch s with
  | run i u =>
    rw [hx] at hf h
    exact .inl (KeepsSettings.trans hf (exec_keepsSettings h))
  | moved u =>
    rw [hx] at hf h
    cases h
    exact hf
  | fault f => rw [hx] at h; cases h
  | refused r => rw [hx] at h; cases h

/-! The invariants right after a reset (R330). -/

theorem State.resetWith_creditInv {p : Params} (epoch : Nat) (hp : p.Legal) : CreditInv (State.resetWith p epoch) :=
  ⟨hp, hp.2.2.1, nofun⟩

theorem State.resetWith_watchdogInv {p : Params} (epoch : Nat) (hp : p.Legal) :
    WatchdogInv (State.resetWith p epoch) := by
  obtain ⟨-, -, -, hsteady, hinit⟩ := id hp
  exact ⟨hp, Nat.lt_of_lt_of_le hsteady hinit⟩

theorem State.resetWith_fragInv (p : Params) (epoch : Nat) : FragInv (State.resetWith p epoch) := nofun

theorem State.resetWith_frameLen (p : Params) (epoch : Nat) (b : Bool) : (State.resetWith p epoch).rx.frameLen b = 0 := by
  cases b <;> rfl

theorem State.resetWith_rxInv (p : Params) (epoch : Nat) : RxInv (State.resetWith p epoch) where
  hdrLen := Nat.zero_le _
  frameLen b := by rw [State.resetWith_frameLen]; exact Nat.zero_le _
  ready := nofun

theorem JdMode.idle_not_decoding : ¬ JdMode.idle.decoding := by
  unfold JdMode.decoding
  decide

theorem ZeroOrOneHot.zero : ZeroOrOneHot 0 := by
  unfold ZeroOrOneHot
  decide

theorem Jd.reset_huff_get (epoch : Nat) (id cls : Bool) : (Jd.reset epoch).huff.get id cls = none := by
  cases id <;> cases cls <;> rfl

/-- The JD unit after a reset: no command runs, the source is empty and no table is present. -/
theorem State.resetWith_jdInv (p : Params) (epoch : Nat) : JdInv (State.resetWith p epoch) where
  frameLen b := by rw [State.resetWith_frameLen]; exact Nat.zero_le _
  srcLen := Nat.zero_le _
  srcPos := Nat.le_refl _
  busy := ⟨nofun, fun h => absurd rfl h⟩
  phase := rfl
  result := nofun
  used := Nat.zero_le _
  sampling := .inl ⟨rfl, rfl⟩
  prepared := nofun
  decoding h := absurd h JdMode.idle_not_decoding
  dcValues id t h := absurd ((Jd.reset_huff_get epoch id false).symm.trans h) nofun
  dcSymbol := nofun
  block h := absurd h.1.1 JdMode.idle_not_decoding
  coef h := by rcases h with h | ⟨b, h⟩ <;> cases h
  masks := ⟨ZeroOrOneHot.zero, ZeroOrOneHot.zero⟩
  corner h := absurd h.1 JdMode.idle_not_decoding

/-! The machine's parameters (R6): each OPEN constant is brought into its range. -/

theorem config_creditInit_le : Config.creditInit.toNat ≤ Config.creditMax := by
  unfold Config.creditInit Config.creditMax
  rw [BitVec.toNat_ofNat]
  omega

theorem config_one_le_tSteady : 1 ≤ Config.tSteady.toNat := by
  unfold Config.tSteady
  split
  · decide
  · rename_i h
    exact Nat.pos_of_ne_zero fun h0 => h (BitVec.eq_of_toNat_eq h0)

theorem config_tSteady_le_tInit : Config.tSteady.toNat ≤ Config.tInit.toNat := by
  unfold Config.tInit
  split
  · exact Nat.le_refl _
  · rename_i h
    exact Nat.le_of_not_lt h

theorem params_config_legal : Params.config.Legal := by
  refine ⟨?_, ?_, config_creditInit_le, config_one_le_tSteady, config_tSteady_le_tInit⟩
  · exact Nat.le_add_right 1 _
  · show 1 + Config.rawRxBufSize % 2 ^ 24 ≤ 2 ^ 24
    omega

end Sys2Proof.Machine

namespace Sys2Proof.Proofs

open Sys2Proof.Machine

/-- Settles O55: every step but a reset keeps the parameters and FIRST_ACK, and a reset keeps the parameters and counts. -/
theorem parametersAndFirstAckStay : Obligations.ParametersAndFirstAckStay := by
  intro s t h
  rcases step_keepsSettings h with hk | ⟨u, hu, rfl⟩
  · exact ⟨hk.params, fun ha => .inl (hk.firstAck ha)⟩
  · exact ⟨hu.params, fun _ => .inr (congrArg (· + 1) hu.epoch)⟩

/-- Settles O59: each invariant holds in the reset state, field by field. -/
theorem resetMeetsInvariants : Obligations.ResetMeetsInvariants := by
  refine ⟨fun p epoch hp => ?_, params_config_legal⟩
  exact ⟨State.resetWith_memInv p epoch, State.resetWith_creditInv epoch hp, State.resetWith_watchdogInv epoch hp,
    State.resetWith_fragInv p epoch, State.resetWith_rxInv p epoch, State.resetWith_jdInv p epoch⟩

end Sys2Proof.Proofs
end

section
/-! PROOFS of the invariant of the JD unit: an instruction's port, what the steps of JD do to the invariant, part by part, and
that the environment's inputs and the transmit port leave it. -/

namespace Sys2Proof

/-! The decoder answers an instruction of the port it reads at. -/

theorem decodePacket_portOf {d : List Byte} {i : Instr} (h : decodePacket d = .ok i) : portOf i = .radio := by
  unfold decodePacket at h
  split at h
  · cases h
  · split at h
    · cases h
      unfold packetInstr
      split_ifs <;> rfl
    · cases h

theorem decodeRegister_portOf {off : Nat} {w : Word} {i : Instr} (h : decodeRegister off w = some i) :
    portOf i = .reg off := by
  unfold decodeRegister at h
  dsimp only at h
  split_ifs at h with h0 <;> cases h <;> subst off <;> rfl

theorem markerInstr_portOf (c : Byte) (lseg : Half) : portOf (markerInstr c lseg) = .header := by
  simp only [markerInstr, apply_ite portOf]
  simp only [portOf, ite_self]

theorem dcInstr_portOf {b : Byte} {i : Instr} (h : dcInstr b = .ok i) : portOf i = .dcSymbol := by
  unfold dcInstr at h
  split_ifs at h <;> cases h <;> rfl

/-- A DC symbol of at most 11 decodes (R95). -/
theorem dcInstr_isOk {b : Byte} (h : b.toNat ≤ 11) : ∃ i, dcInstr b = .ok i := by
  unfold dcInstr
  split_ifs <;> exact ⟨_, rfl⟩

theorem acInstr_portOf (b : Byte) : portOf (acInstr b) = .acSymbol := by
  unfold acInstr
  dsimp only
  split_ifs <;> rfl

theorem decode_portOf {p : Port} {bs : List Byte} {i : Instr} (h : decode p bs = .ok i) : portOf i = p := by
  cases p with
  | radio => exact decodePacket_portOf h
  | reg off =>
    simp only [decode] at h
    split at h
    · split at h
      · rename_i hi
        cases h
        exact decodeRegister_portOf hi
      · cases h
    · cases h
  | header =>
    simp only [decode] at h
    split at h
    · split at h
      · cases h; exact markerInstr_portOf _ _
      · cases h
    · cases h
  | dcSymbol =>
    simp only [decode] at h
    split at h
    · exact dcInstr_portOf h
    · cases h
  | acSymbol =>
    simp only [decode] at h
    split at h
    · cases h; exact acInstr_portOf _
    · cases h
  | soi | entropy | restart =>
    simp only [decode] at h
    split at h
    · split_ifs at h <;> cases h <;> rfl
    · cases h

end Sys2Proof

namespace Sys2Proof.Machine

/-! What JD fetches. -/

/-- The port at which JD decodes at a place of its command (R122, R123, R151, R154, R171, R175). -/
def JdMode.port : JdMode → Option Port
  | .soi => some .soi
  | .marker => some .header
  | .restart => some .restart
  | .huffDc => some .entropy
  | .huffAc => some .entropy
  | .symbolDc _ => some .dcSymbol
  | .symbolAc _ => some .acSymbol
  | .idle => none
  | .mcu => none
  | .transform => none
  | .output => none
  | .tile => none

theorem JdMode.port_decodedByJd {m : JdMode} {p : Port} (h : m.port = some p) : decodedByJd p = true := by
  cases m <;> cases h <;> rfl

/-- What a read of source bytes that are decoded at a port leads to: an instruction of that port, or the end of the command
with INP or FMT1; for FetchData also a data byte for HUFFEXT; an address that does not exist takes a LEN above the buffer's
size (R122, R123, R150, R151, R154). -/
inductive SourceFetch (port : Port) (s : State) : Fetched → Prop where
  | run {i : Instr} {t : State} (h : Reads s t) (hp : portOf i = port) : SourceFetch port s (.run i t)
  | feeds {b : Byte} {t : State} (h : Reads s t) (hp : port = .entropy) : SourceFetch port s (.moved (feedReader b t))
  | ends {r : ResultCode} {t : State} (hr : r = .inp ∨ r = .fmt1) (h : Reads s t) :
      SourceFetch port s (.moved (endCommand r t))
  | fault (h : s.params.rxBufSize < s.jd.srcLen.toNat) : SourceFetch port s (.fault .rxbufAddress)

theorem fetchMarker_sourceFetch (port : Port) (n : Nat) (s : State) : SourceFetch port s (fetchMarker port n s) := by
  have h := readBytes_readsOnly n s
  unfold fetchMarker
  revert h
  cases readBytes n s with
  | ok bs t =>
    intro h
    rw [Res.bind_ok]
    split
    · exact .run h (decode_portOf ‹_›)
    · exact .ends (.inr rfl) h
  | ends r t =>
    intro h
    exact .ends h.1 h.2
  | fault f =>
    rintro ⟨rfl, hlt⟩
    exact .fault hlt

theorem fetchEntropy_sourceFetch (s : State) : SourceFetch .entropy s (fetchEntropy s) := by
  have h := needByte_readsOnly s
  unfold fetchEntropy
  revert h
  cases needByte s with
  | ends r t =>
    intro h
    exact .ends h.1 h.2
  | fault f =>
    rintro ⟨rfl, hlt⟩
    exact .fault hlt
  | ok b t =>
    intro h
    have ht : Reads s t := h
    rw [Res.bind_ok]
    split
    · have h' := needByte_readsOnly t
      revert h'
      cases needByte t with
      | ends r u =>
        intro h'
        exact .ends h'.1 (ht.trans h'.2)
      | fault f =>
        rintro ⟨rfl, hlt⟩
        rw [ht.params, ht.srcLen] at hlt
        exact .fault hlt
      | ok c u =>
        intro h'
        rw [Res.bind_ok]
        split
        · exact .run (ht.trans h') (decode_portOf ‹_›)
        · exact .ends (.inr rfl) (ht.trans h')
    · exact .feeds ht rfl

theorem SourceFetch.run_port {port : Port} {s u : State} {i : Instr} (h : SourceFetch port s (.run i u)) :
    portOf i = port := by
  cases h with
  | run h hp => exact hp

theorem fetchMarker_run_port {port : Port} {n : Nat} {s u : State} {i : Instr} (h : fetchMarker port n s = .run i u) :
    portOf i = port := (h ▸ fetchMarker_sourceFetch port n s).run_port

theorem huffStep_run_port {cls : Bool} {found : Byte → JdMode} {s u : State} {i : Instr}
    (h : huffStep cls found s = .run i u) : portOf i = .entropy := by
  unfold huffStep at h
  split at h
  · exact (h ▸ fetchEntropy_sourceFetch s).run_port
  · split at h
    · unfold Res.moved at h
      split at h <;> cases h
    · cases h

theorem fetchSymbol_run_port {port : Port} {b : Byte} {s u : State} {i : Instr} (h : fetchSymbol port b s = .run i u) :
    portOf i = port := by
  unfold fetchSymbol at h
  split at h
  · cases h; exact decode_portOf ‹_›
  · cases h

/-- JD runs an instruction of the port at which it decodes. -/
theorem jdFetch_run_port {s u : State} {i : Instr} (h : jdFetch s = .run i u) : s.jd.mode.port = some (portOf i) := by
  unfold jdFetch at h
  cases hm : s.jd.mode with
  | soi => rw [hm] at h; exact congrArg some (fetchMarker_run_port h).symm
  | marker => rw [hm] at h; exact congrArg some (fetchMarker_run_port h).symm
  | restart => rw [hm] at h; exact congrArg some (fetchMarker_run_port h).symm
  | huffDc => rw [hm] at h; exact congrArg some (huffStep_run_port h).symm
  | huffAc => rw [hm] at h; exact congrArg some (huffStep_run_port h).symm
  | symbolDc b => rw [hm] at h; exact congrArg some (fetchSymbol_run_port h).symm
  | symbolAc b => rw [hm] at h; exact congrArg some (fetchSymbol_run_port h).symm
  | mcu =>
    rw [hm] at h
    dsimp only at h
    unfold Res.moved at h
    split at h <;> cases h
  | idle | transform | output | tile => rw [hm] at h; cases h


/-! The invariant under the updates that the parts of a JD command make. -/

theorem Reads.mode {s t : State} (h : Reads s t) : t.jd.mode = s.jd.mode := by rw [h.frame]

theorem Reads.phase {s t : State} (h : Reads s t) : t.jd.phase = s.jd.phase := by rw [h.frame]

/-- Source reads keep the invariant: POS stays within LEN (R150). -/
theorem JdInv.reads {s t : State} (h : JdInv s) (hr : Reads s t) : JdInv t := by
  have hpos : t.jd.srcPos.toNat ≤ s.jd.srcLen.toNat := hr.high.trans (max_le h.srcPos le_rfl)
  rw [hr.frame]
  exact { h with
    srcPos := hpos
    prepared := fun hp => ⟨(h.prepared hp).1, { (h.prepared hp).2 with }⟩
    decoding := fun hd => { h.decoding hd with } }

/-- Under the invariant the source stays inside its buffer, so no read faults (R60, R150). -/
theorem JdInv.not_beyond {s : State} (h : JdInv s) : ¬ s.params.rxBufSize < s.jd.srcLen.toNat := h.srcLen.not_gt

/-- The invariant does not speak of DONE and CMD_IGNORED. -/
theorem JdInv.setFlags {s : State} (h : JdInv s) (done ignored : Bool) :
    JdInv (s.setJd { s.jd with done := done, cmdIgnored := ignored }) :=
  { h with
    prepared := fun hp => ⟨(h.prepared hp).1, { (h.prepared hp).2 with }⟩
    decoding := fun hd => { h.decoding hd with } }

theorem JdMode.not_decoding_of_phase_one {m : JdMode} (h : m.phase = 1) : ¬ m.decoding := by
  unfold JdMode.decoding
  rw [h]
  decide

theorem JdMode.ne_idle_of_phase {m : JdMode} {p : BitVec 2} (h : m.phase = p) (hp : p ≠ 0) : m ≠ .idle := by
  rintro rfl
  exact hp h.symm

theorem JdMode.decoding.ne_idle {m : JdMode} (h : m.decoding) : m ≠ .idle := by
  rintro rfl
  exact JdMode.idle_not_decoding h

/-- While a command runs PREPARED is 0 (R120, R200). -/
theorem JdInv.prepared_false {s : State} (h : JdInv s) (hm : s.jd.mode ≠ .idle) : s.jd.prepared = false :=
  Bool.eq_false_iff.mpr fun hp => hm (h.prepared hp).1

/-! PREPARE. -/

/-- `k` is `j` with other contents of what PREPARE writes: the configuration, the tables, the mask and the place. -/
structure ParseFrame (j k : Jd) : Prop where
  frame : k = { j with
    width := k.width, height := k.height, msx := k.msx, msy := k.msy, nrst := k.nrst
    qtid0 := k.qtid0, qtid1 := k.qtid1, qtid2 := k.qtid2
    used := k.used, huff := k.huff, quant := k.quant, msk := k.msk, mode := k.mode }

/-- The invariant while a PREPARE runs. -/
structure Parsing (s : State) : Prop where
  inv : JdInv s
  phase : s.jd.phase = 1

theorem Parsing.mode_phase {s : State} (h : Parsing s) : s.jd.mode.phase = 1 := h.inv.phase.symm.trans h.phase

theorem Parsing.mode_ne_idle {s : State} (h : Parsing s) : s.jd.mode ≠ .idle :=
  JdMode.ne_idle_of_phase h.mode_phase (by decide)

theorem Parsing.reads {s t : State} (h : Parsing s) (hr : Reads s t) : Parsing t :=
  ⟨h.inv.reads hr, hr.phase.trans h.phase⟩

/-- What PREPARE writes keeps the invariant where the arena, the sampling, the DC values and the mask are legal. -/
theorem Parsing.update {s : State} (h : Parsing s) {j : Jd} (hf : ParseFrame s.jd j) (hm : j.mode.phase = 1)
    (hused : j.used.toNat ≤ s.params.poolSize.toNat) (hsampling : Sampling j)
    (hdc : ∀ id t, j.huff.get id false = some t → ∀ v ∈ t.val, v.toNat ≤ 11) (hmsk : ZeroOrOneHot j.msk) :
    Parsing (s.setJd j) := by
  have hnd : ¬ j.mode.decoding := JdMode.not_decoding_of_phase_one hm
  have hidle : j.mode ≠ .idle := JdMode.ne_idle_of_phase hm (by decide)
  have hbusy : s.jd.busy = true := h.inv.busy.mpr h.mode_ne_idle
  have hprep : s.jd.prepared = false := h.inv.prepared_false h.mode_ne_idle
  have hphase : s.jd.phase = 1 := h.phase
  rw [hf.frame]
  exact
    { phase := hphase
      inv := { h.inv with
        busy := ⟨fun _ => hidle, fun _ => hbusy⟩
        phase := hphase.trans hm.symm
        used := hused
        sampling := hsampling
        prepared := fun hp => absurd (hprep.symm.trans hp) nofun
        decoding := fun hd => absurd hd hnd
        dcValues := hdc
        dcSymbol := fun b hb => by rw [show j.mode = .symbolDc b from hb] at hm; exact absurd hm (by simp [JdMode.phase])
        block := fun hb => absurd hb.1.1 hnd
        coef := fun hc => by
          rcases hc with hc | ⟨b, hc⟩
          · rw [show j.mode = .huffAc from hc] at hm; exact absurd hm (by simp [JdMode.phase])
          · rw [show j.mode = .symbolAc b from hc] at hm; exact absurd hm (by simp [JdMode.phase])
        masks := ⟨hmsk, h.inv.masks.2⟩
        corner := fun hb => absurd hb.1 hnd } }

/-! DECOMP. -/

/-- `k` is `j` with other contents of what DECOMP writes: PHASE, JD_POS, the predictors, the bit reader, the restart counters,
the scratch buffers, the place and the loop variables. -/
structure DecodeFrame (j k : Jd) : Prop where
  frame : k = { j with
    phase := k.phase, posX := k.posX, posY := k.posY, dcv0 := k.dcv0, dcv1 := k.dcv1, dcv2 := k.dcv2
    cur := k.cur, msk := k.msk, rst := k.rst, rsc := k.rsc, tmp := k.tmp, mcubuf := k.mcubuf, tile := k.tile
    rect := k.rect, mode := k.mode, loopX := k.loopX, loopY := k.loopY, blk := k.blk, coefIdx := k.coefIdx
    acAny := k.acAny, hx := k.hx }

/-- The part of the invariant that speaks of the place of a DECOMP and of its loop variables. -/
structure PlaceInv (j : Jd) : Prop where
  decoding : j.mode.decoding
  phase : j.phase = j.mode.phase
  dcSymbol : ∀ b, j.mode = .symbolDc b → b.toNat ≤ 11
  block : j.mode.inBlock → j.blk < j.nby + 2
  coef : (j.mode = .huffAc ∨ ∃ b, j.mode = .symbolAc b) → 1 ≤ j.coefIdx ∧ j.coefIdx < 64
  masks : ZeroOrOneHot j.msk ∧ ZeroOrOneHot j.hx.m
  corner : j.mode.inMcu → j.loopX.toNat < j.width.toNat ∧ j.loopY.toNat < j.height.toNat

theorem JdInv.place {s : State} (h : JdInv s) (hd : s.jd.mode.decoding) : PlaceInv s.jd := { h with decoding := hd }

/-- What DECOMP writes keeps the invariant where the new place is legal. -/
theorem JdInv.update {s : State} (h : JdInv s) (hd : s.jd.mode.decoding) {j : Jd} (hf : DecodeFrame s.jd j)
    (hp : PlaceInv j) : JdInv (s.setJd j) := by
  have hidle : j.mode ≠ .idle := hp.decoding.ne_idle
  have hbusy : s.jd.busy = true := h.busy.mpr hd.ne_idle
  have hprep : s.jd.prepared = false := h.prepared_false hd.ne_idle
  rw [hf.frame] at hp ⊢
  exact { hp, h with
    busy := ⟨fun _ => hidle, fun _ => hbusy⟩
    prepared := fun h1 => absurd (hprep.symm.trans h1) nofun
    decoding := fun _ => { h.decoding hd with } }

/-! The end of a command (R305). -/

/-- A command may end with `r` here: never with FMT2, and a PREPARE with OK only where all that DECOMP uses is there (R130). -/
structure MayEnd (r : ResultCode) (s : State) : Prop where
  inv : JdInv s
  result : r ≠ .fmt2
  prepared : r = .ok → s.jd.phase = 1 → Decodable s.jd

theorem MayEnd.of_ne_ok {r : ResultCode} {s : State} (h : JdInv s) (hr : r ≠ .fmt2 ∧ r ≠ .ok) : MayEnd r s :=
  ⟨h, hr.1, fun h' => absurd h' hr.2⟩

theorem MayEnd.of_read {r : ResultCode} {s : State} (h : JdInv s) (hr : r = .inp ∨ r = .fmt1) : MayEnd r s :=
  .of_ne_ok h (by rcases hr with rfl | rfl <;> decide)

theorem MayEnd.jdInv {r : ResultCode} {s : State} (h : MayEnd r s) : JdInv (endCommand r s) where
  frameLen := h.inv.frameLen
  srcLen := h.inv.srcLen
  srcPos := h.inv.srcPos
  busy := by simp
  phase := rfl
  result := h.result
  used := h.inv.used
  sampling := h.inv.sampling
  prepared hp := by
    have hd : Decodable s.jd := by
      change (if s.jd.phase = 1 then decide (r = .ok) else s.jd.prepared) = true at hp
      split at hp
      · exact h.prepared (of_decide_eq_true hp) ‹_›
      · exact (h.inv.prepared hp).2
    exact ⟨rfl, { hd with }⟩
  decoding hd := absurd hd JdMode.idle_not_decoding
  dcValues := h.inv.dcValues
  dcSymbol := nofun
  block hb := absurd hb.1.1 JdMode.idle_not_decoding
  coef hc := by rcases hc with hc | ⟨b, hc⟩ <;> cases hc
  masks := h.inv.masks
  corner hb := absurd hb.1 JdMode.idle_not_decoding

/-! The parts of a JD command: each goes on with what is asked of it, or ends where it may, and none faults. -/

section
variable {α β : Type}

/-- A part of a JD command goes on in a state with `P`, or ends the command where it may end; it does not fault. -/
def Res.Keeps (P : State → Prop) (x : Res α) : Prop :=
  match x with
  | .ok _ t => P t
  | .ends r t => MayEnd r t
  | .fault _ => False

theorem Res.Keeps.bind {P Q : State → Prop} {x : Res α} {k : α → State → Res β} (h : x.Keeps P)
    (hk : ∀ a t, P t → (k a t).Keeps Q) : (x.bind k).Keeps Q := by
  cases x with
  | ok a t => exact hk a t h
  | ends r t => exact h
  | fault f => exact h.elim

/-- A part that only reads the source keeps what reads keep. -/
theorem Res.ReadsOnly.keeps {P : State → Prop} {x : Res α} {s : State} (hx : x.ReadsOnly s) (h : JdInv s)
    (hP : ∀ t, Reads s t → P t) : x.Keeps P := by
  cases x with
  | ok a t => exact hP t hx
  | ends r t => exact .of_read (h.reads hx.2) hx.1
  | fault f => exact h.not_beyond hx.2

end

/-! The outcome of a step. -/

/-- An outcome keeps the invariant: a next state has it, and the only stop is the refusal of a register access (R43). -/
def KeepsJdInv (x : Host.Outcome State Fault Refusal) : Prop :=
  match x with
  | .next t => JdInv t
  | .fault _ => False
  | .refused r => r = .registerAccess

theorem Res.Keeps.finish {x : Res Unit} (h : x.Keeps JdInv) : KeepsJdInv x.finish := by
  cases x with
  | ok a t => exact h
  | ends r t => exact MayEnd.jdInv h
  | fault f => exact h.elim

/-- What is found to do keeps the invariant: an instruction runs at its place. -/
def Fetched.KeepsJdInv (x : Fetched) : Prop :=
  match x with
  | .run i t => JdInv t ∧ (decodedByJd (portOf i) = true → t.jd.mode.port = some (portOf i))
  | .moved t => JdInv t
  | .fault _ => False
  | .refused r => r = .registerAccess

theorem Res.Keeps.moved {x : Res Unit} (h : x.Keeps JdInv) : x.moved.KeepsJdInv := by
  cases x with
  | ok a t => exact h
  | ends r t => exact MayEnd.jdInv h
  | fault f => exact h.elim


/-! The marker segments (R122 to R133). -/

/-- An error ends a PREPARE (R300). -/
theorem Parsing.ends {α : Type} {P : State → Prop} {s : State} (h : Parsing s) {r : ResultCode} (hr : r ≠ .fmt2 ∧ r ≠ .ok) :
    (Res.ends r s : Res α).Keeps P := MayEnd.of_ne_ok h.inv hr

theorem nextMarker_keeps {s : State} (h : Parsing s) : (nextMarker s).Keeps JdInv := by
  unfold nextMarker Res.Keeps
  exact Parsing.inv (h.update ⟨rfl⟩ rfl h.inv.used h.inv.sampling h.inv.dcValues h.inv.masks.1)

theorem withSegment_keeps {lseg : Half} {k : Nat → State → Res Unit} {s : State} (h : Parsing s)
    (hk : ∀ n, (k n s).Keeps JdInv) : (withSegment lseg k s).Keeps JdInv := by
  unfold withSegment
  split
  · exact h.ends (by decide)
  · exact hk _

theorem withBody_keeps {lseg : Half} {k : List Byte → State → Res Unit} {s : State} (h : Parsing s)
    (hk : ∀ seg t, Parsing t → (k seg t).Keeps JdInv) : (withBody lseg k s).Keeps JdInv := by
  rcases withBody_cases lseg k s with ⟨r, hr, t, e, ht⟩ | ⟨-, hlt⟩ | ⟨seg, t, e, ht⟩
  · rw [e]
    refine (h.reads ht).ends ?_
    simp only [List.mem_cons, List.not_mem_nil, or_false] at hr
    rcases hr with rfl | rfl | rfl <;> decide
  · exact absurd hlt h.inv.not_beyond
  · rw [e]
    exact hk seg t (h.reads ht)

theorem rejectSegment_keeps {lseg : Half} {s : State} (h : Parsing s) : (rejectSegment lseg s).Keeps JdInv :=
  withSegment_keeps h fun _ => h.ends (by decide)

/-- `k` is `j` with another frame configuration (R23). -/
structure ConfigFrame (j k : Jd) : Prop where
  frame : k = { j with
    width := k.width, height := k.height, msx := k.msx, msy := k.msy, nrst := k.nrst
    qtid0 := k.qtid0, qtid1 := k.qtid1, qtid2 := k.qtid2 }

theorem Parsing.configure {s : State} (h : Parsing s) {j : Jd} (hf : ConfigFrame s.jd j) (hs : Sampling j) :
    Parsing (s.setJd j) := by
  rw [hf.frame] at hs ⊢
  exact h.update ⟨rfl⟩ h.mode_phase h.inv.used hs h.inv.dcValues h.inv.masks.1

theorem driBody_keeps {seg : List Byte} {s : State} (h : Parsing s) : (driBody seg s).Keeps JdInv := by
  unfold driBody
  split
  · exact h.ends (by decide)
  · exact nextMarker_keeps (h.configure ⟨rfl⟩ h.inv.sampling)

/-- SOF0 gives the sampling of one of the three formats (R125). -/
theorem sof0_sampling {b : Byte} (h : ¬ (b ≠ 0x11 ∧ b ≠ 0x21 ∧ b ≠ 0x22)) {j : Jd} (hx : j.msx = b.extractLsb' 4 2)
    (hy : j.msy = b.extractLsb' 0 2) : Sampling j := by
  have hb : b = 0x11 ∨ b = 0x21 ∨ b = 0x22 := by tauto
  unfold Sampling
  rw [hx, hy]
  rcases hb with rfl | rfl | rfl <;> decide

theorem sof0Body_keeps {seg : List Byte} {s : State} (h : Parsing s) : (sof0Body seg s).Keeps JdInv := by
  unfold sof0Body
  simp only [State.setJd_setJd, State.setJd_jd]
  split_ifs with h15 h5 h7 h8 h11 h14
  · exact h.ends (by decide)
  · refine Parsing.ends ?_ (by decide)
    exact h.configure ⟨rfl⟩ h.inv.sampling
  · refine Parsing.ends ?_ (by decide)
    exact h.configure ⟨rfl⟩ h.inv.sampling
  · refine Parsing.ends ?_ (by decide)
    exact h.configure ⟨rfl⟩ (sof0_sampling h7 rfl rfl)
  · refine Parsing.ends ?_ (by decide)
    exact h.configure ⟨rfl⟩ (sof0_sampling h7 rfl rfl)
  · refine Parsing.ends ?_ (by decide)
    exact h.configure ⟨rfl⟩ (sof0_sampling h7 rfl rfl)
  · refine nextMarker_keeps ?_
    exact h.configure ⟨rfl⟩ (sof0_sampling h7 rfl rfl)

/-- An allocation stays in the arena, or ends the command with MEM1 (R62). -/
theorem allocOrMem1_keeps (n : Nat) {s : State} (h : Parsing s) : (allocOrMem1 n s).Keeps Parsing := by
  unfold allocOrMem1
  split
  · rename_i t ht
    obtain ⟨e, hused⟩ := alloc_some ht
    rw [e]
    exact h.update ⟨rfl⟩ h.mode_phase (hused h.inv.used).2 h.inv.sampling h.inv.dcValues h.inv.masks.1
  · exact h.ends (by decide)

/-- A DC table of values of at most 11, or an AC table, keeps the DC values of the unit (R95, R127). -/
theorem HuffTables.set_dcValues {h : HuffTables} {id cls : Bool} {t : HuffTable}
    (hh : ∀ id t, h.get id false = some t → ∀ v ∈ t.val, v.toNat ≤ 11) (ht : cls = false → ∀ v ∈ t.val, v.toNat ≤ 11)
    (id' : Bool) (t' : HuffTable) (hget : (h.set id cls t).get id' false = some t') : ∀ v ∈ t'.val, v.toNat ≤ 11 := by
  by_cases heq : (id', false) = (id, cls)
  · cases heq
    rw [HuffTables.set_get_same] at hget
    cases hget
    exact ht rfl
  · rw [HuffTables.set_get_of_ne _ _ _ _ _ _ heq] at hget
    exact hh id' t' hget

/-- The class bit of a table's first byte, as a mask and as a bit (R90). -/
theorem classBit_eq_zero : ∀ d : Byte, d.getLsbD 4 = false → d &&& 0x10 = 0 := by decide

theorem dhtTable_keeps (seg : List Byte) {s : State} (h : Parsing s) : (dhtTable seg s).Keeps Parsing := by
  unfold dhtTable
  dsimp only
  split
  · exact h.ends (by decide)
  split
  · exact h.ends (by decide)
  refine (allocOrMem1_keeps _ h).bind fun _ t ht => (allocOrMem1_keeps _ ht).bind fun _ u hu => ?_
  split
  · exact hu.ends (by decide)
  refine (allocOrMem1_keeps _ hu).bind fun _ v hv => ?_
  split
  · exact hv.ends (by decide)
  · rename_i hvals
    refine hv.update ⟨rfl⟩ hv.mode_phase hv.inv.used hv.inv.sampling (HuffTables.set_dcValues hv.inv.dcValues ?_)
      hv.inv.masks.1
    intro hcls b hb
    by_contra hlt
    exact hvals ⟨classBit_eq_zero _ hcls, List.any_eq_true.mpr ⟨b, hb, decide_eq_true (by omega)⟩⟩

theorem dqtTable_keeps (seg : List Byte) {s : State} (h : Parsing s) : (dqtTable seg s).Keeps Parsing := by
  unfold dqtTable
  dsimp only
  split_ifs
  · exact h.ends (by decide)
  · exact h.ends (by decide)
  · exact h.ends (by decide)
  · refine (allocOrMem1_keeps _ h).bind fun _ t ht => ?_
    exact ht.update ⟨rfl⟩ ht.mode_phase ht.inv.used ht.inv.sampling ht.inv.dcValues ht.inv.masks.1

theorem tableLoop_keeps {table : List Byte → State → Res (List Byte)}
    (htable : ∀ seg {t}, Parsing t → (table seg t).Keeps Parsing) (n : Nat) (seg : List Byte) {s : State} (h : Parsing s) :
    (tableLoop table n seg s).Keeps Parsing := by
  induction n generalizing seg s with
  | zero => exact h
  | succ n ih =>
    unfold tableLoop
    split
    · exact h
    · exact (htable seg h).bind fun rest t ht => ih rest ht

theorem dhtBody_keeps {seg : List Byte} {s : State} (h : Parsing s) : (dhtBody seg s).Keeps JdInv :=
  (tableLoop_keeps dhtTable_keeps _ seg h).bind fun _ _ ht => nextMarker_keeps ht

theorem dqtBody_keeps {seg : List Byte} {s : State} (h : Parsing s) : (dqtBody seg s).Keeps JdInv :=
  (tableLoop_keeps dqtTable_keeps _ seg h).bind fun _ _ ht => nextMarker_keeps ht

/-- A component that passes R130's checks has its tables. -/
theorem scanComponent_none {cmp : Nat} {sel : Byte} {j : Jd} (h : scanComponent cmp sel j = none) :
    (j.huff.get (decide (cmp ≠ 0)) false).isSome = true ∧ (j.huff.get (decide (cmp ≠ 0)) true).isSome = true ∧
      (j.quant.get (j.qtid cmp)).isSome = true := by
  rcases scanComponent_cases cmp sel j with ⟨e, -⟩ | ⟨e, -⟩ | ⟨-, -, hc⟩
  · rw [h] at e; cases e
  · rw [h] at e; cases e
  · exact hc

/-- A failed check of SOS is FMT1 or FMT3 (R130). -/
theorem scanComponent_some {cmp : Nat} {sel : Byte} {j : Jd} {r : ResultCode} (h : scanComponent cmp sel j = some r) :
    r = .fmt1 ∨ r = .fmt3 := by
  rcases scanComponent_cases cmp sel j with ⟨e, -⟩ | ⟨e, -⟩ | ⟨e, -⟩
  · rw [h] at e; cases e; exact .inr rfl
  · rw [h] at e; cases e; exact .inl rfl
  · rw [h] at e; cases e

theorem sosChecks_some {seg : List Byte} {j : Jd} {r : ResultCode} (h : sosChecks seg j = some r) :
    r = .fmt1 ∨ r = .fmt3 := by
  unfold sosChecks at h
  split at h
  · cases h; exact .inl rfl
  split at h
  · cases h; exact .inl rfl
  split at h
  · cases h; exact .inr rfl
  split at h
  · cases h; exact scanComponent_some ‹_›
  split at h
  · cases h; exact scanComponent_some ‹_›
  split at h
  · cases h; exact scanComponent_some ‹_›
  split at h
  · cases h; exact .inl rfl
  · cases h

/-- The checks of SOS establish all that DECOMP uses (R130). -/
theorem sosChecks_none {seg : List Byte} {j : Jd} (h : sosChecks seg j = none) : Decodable j := by
  unfold sosChecks at h
  split at h
  · cases h
  rename_i hsize
  split at h
  · cases h
  split at h
  · cases h
  split at h
  · cases h
  rename_i h0
  split at h
  · cases h
  rename_i h1
  split at h
  · cases h
  rename_i h2
  split at h
  · cases h
  rename_i hnby
  obtain ⟨dc0, ac0, q0⟩ := scanComponent_none h0
  obtain ⟨dc1, ac1, q1⟩ := scanComponent_none h1
  obtain ⟨-, -, q2⟩ := scanComponent_none h2
  rw [not_or] at hsize
  exact
    { width := hsize.1
      height := hsize.2
      sampling := hnby
      huff := fun id cls => by
        cases id <;> cases cls
        · exact dc0
        · exact ac0
        · exact dc1
        · exact ac1
      quant := fun cmp => match cmp with
        | 0 => q0
        | 1 => q1
        | _ + 2 => q2 }

theorem sosBody_keeps {seg : List Byte} {s : State} (h : Parsing s) : (sosBody seg s).Keeps JdInv := by
  unfold sosBody
  split
  · rename_i r hr
    exact h.ends (by rcases sosChecks_some hr with rfl | rfl <;> decide)
  · rename_i hnone
    have hd : Decodable s.jd := sosChecks_none hnone
    have hp := h.update (j := { s.jd with msk := 0 }) ⟨rfl⟩ h.mode_phase h.inv.used h.inv.sampling h.inv.dcValues
      ZeroOrOneHot.zero
    exact ⟨hp.inv, by decide, fun _ _ => { hd with }⟩

theorem skipSegment_keeps {n : Nat} {s : State} (h : Parsing s) :
    ((skipBytes n s).bind fun _ s => nextMarker s).Keeps JdInv :=
  ((skipBytes_readsOnly n s).keeps h.inv fun _ ht => h.reads ht).bind fun _ _ ht => nextMarker_keeps ht


/-! The block decoder and the MCU loop (R151 to R153, R170 to R181, R202 to R211). -/

/-- The invariant at a place of DECOMP. -/
structure Decoding (m : JdMode) (s : State) : Prop where
  inv : JdInv s
  mode : s.jd.mode = m
  decoding : m.decoding

section
variable {m : JdMode} {s t : State}

theorem Decoding.modeDecoding (h : Decoding m s) : s.jd.mode.decoding := h.mode ▸ h.decoding

theorem Decoding.place (h : Decoding m s) : PlaceInv s.jd := h.inv.place h.modeDecoding

theorem Decoding.phase (h : Decoding m s) : s.jd.phase = m.phase := h.place.phase.trans (congrArg _ h.mode)

theorem Decoding.decodable (h : Decoding m s) : Decodable s.jd := h.inv.decoding h.modeDecoding

theorem Decoding.reads (h : Decoding m s) (hr : Reads s t) : Decoding m t :=
  ⟨h.inv.reads hr, hr.mode.trans h.mode, h.decoding⟩

theorem Decoding.update (h : Decoding m s) {j : Jd} (hf : DecodeFrame s.jd j) (hp : PlaceInv j) : JdInv (s.setJd j) :=
  h.inv.update h.modeDecoding hf hp

theorem Decoding.ends (h : Decoding m s) {α : Type} {P : State → Prop} {r : ResultCode} (hr : r ≠ .fmt2 ∧ r ≠ .ok) :
    (Res.ends r s : Res α).Keeps P := MayEnd.of_ne_ok h.inv hr

/-- A block is being decoded: it is a block of the MCU, and the MCU stands inside the image. -/
theorem Decoding.inBlock (h : Decoding m s) (hb : m.inBlock) :
    s.jd.blk < s.jd.nby + 2 ∧ s.jd.loopX.toNat < s.jd.width.toNat ∧ s.jd.loopY.toNat < s.jd.height.toNat :=
  ⟨h.inv.block (h.mode ▸ hb), h.inv.corner (h.mode ▸ hb.1)⟩

end

/-- The place at the MCU loop head. -/
theorem PlaceInv.mcu {j : Jd} (hm : j.mode = .mcu) (hp : j.phase = 2) (hk : ZeroOrOneHot j.msk ∧ ZeroOrOneHot j.hx.m) :
    PlaceInv j where
  decoding := by simp [hm, JdMode.decoding, JdMode.phase]
  phase := by rw [hp, hm]; rfl
  dcSymbol b hb := by rw [hm] at hb; cases hb
  block hb := absurd hm hb.1.2
  coef hc := by rw [hm] at hc; rcases hc with hc | ⟨b, hc⟩ <;> cases hc
  masks := hk
  corner hb := absurd hm hb.2

/-- A place outside the blocks of an MCU that has begun. -/
theorem PlaceInv.aroundBlocks {j : Jd} (hm : j.mode = .restart ∨ j.mode = .output ∨ j.mode = .tile)
    (hp : j.phase = j.mode.phase) (hk : ZeroOrOneHot j.msk ∧ ZeroOrOneHot j.hx.m)
    (hc : j.loopX.toNat < j.width.toNat ∧ j.loopY.toNat < j.height.toNat) : PlaceInv j where
  decoding := by rcases hm with hm | hm | hm <;> simp [hm, JdMode.decoding, JdMode.phase]
  phase := hp
  dcSymbol b hb := by rw [hb] at hm; simp at hm
  block hb := by
    obtain ⟨-, h1, h2, h3⟩ := hb
    tauto
  coef hc := by rcases hc with hc | ⟨b, hc⟩ <;> (rw [hc] at hm; simp at hm)
  masks := hk
  corner _ := hc

/-- A place inside a block. -/
theorem PlaceInv.insideBlock {j : Jd} (hm : j.mode.inBlock) (hp : j.phase = 2) (hb : j.blk < j.nby + 2)
    (hk : ZeroOrOneHot j.msk ∧ ZeroOrOneHot j.hx.m)
    (hc : j.loopX.toNat < j.width.toNat ∧ j.loopY.toNat < j.height.toNat)
    (hdc : ∀ b, j.mode = .symbolDc b → b.toNat ≤ 11)
    (hac : (j.mode = .huffAc ∨ ∃ b, j.mode = .symbolAc b) → 1 ≤ j.coefIdx ∧ j.coefIdx < 64) : PlaceInv j where
  decoding := hm.1.1
  phase := by
    rw [hp]
    obtain ⟨⟨hd, -⟩, -, -, ht⟩ := hm
    revert hd ht
    cases j.mode <;> simp [JdMode.decoding, JdMode.phase]
  dcSymbol := hdc
  block _ := hb
  coef := hac
  masks := hk
  corner _ := hc

/-- The places inside a block of an MCU. -/
theorem JdMode.inBlock_iff {m : JdMode} : m.inBlock ↔
    m = .huffDc ∨ m = .huffAc ∨ (∃ b, m = .symbolDc b) ∨ (∃ b, m = .symbolAc b) ∨ m = .transform := by
  cases m <;> simp [JdMode.inBlock, JdMode.inMcu, JdMode.decoding, JdMode.phase]

theorem JdMode.decoding_mcu : JdMode.mcu.decoding := by simp [JdMode.decoding, JdMode.phase]
theorem JdMode.inMcu_restart : JdMode.restart.inMcu := by simp [JdMode.inMcu, JdMode.decoding, JdMode.phase]
theorem JdMode.inMcu_output : JdMode.output.inMcu := by simp [JdMode.inMcu, JdMode.decoding, JdMode.phase]
theorem JdMode.inMcu_tile : JdMode.tile.inMcu := by simp [JdMode.inMcu, JdMode.decoding, JdMode.phase]
theorem JdMode.inBlock_huffDc : JdMode.huffDc.inBlock := JdMode.inBlock_iff.mpr (.inl rfl)
theorem JdMode.inBlock_huffAc : JdMode.huffAc.inBlock := JdMode.inBlock_iff.mpr (.inr (.inl rfl))
theorem JdMode.inBlock_symbolDc (b : Byte) : (JdMode.symbolDc b).inBlock :=
  JdMode.inBlock_iff.mpr (.inr (.inr (.inl ⟨b, rfl⟩)))
theorem JdMode.inBlock_symbolAc (b : Byte) : (JdMode.symbolAc b).inBlock :=
  JdMode.inBlock_iff.mpr (.inr (.inr (.inr (.inl ⟨b, rfl⟩))))
theorem JdMode.inBlock_transform : JdMode.transform.inBlock := JdMode.inBlock_iff.mpr (.inr (.inr (.inr (.inr rfl))))

/-- A block of the MCU begins (R170). -/
theorem PlaceInv.startBlock {blk : Nat} {j : Jd} (hp : j.phase = 2) (hb : blk < j.nby + 2) (hk : ZeroOrOneHot j.msk)
    (hc : j.loopX.toNat < j.width.toNat ∧ j.loopY.toNat < j.height.toNat) : PlaceInv (startBlock blk j) :=
  .insideBlock JdMode.inBlock_huffDc hp hb ⟨hk, hk⟩ hc nofun (by rintro (h | ⟨b, h⟩) <;> cases h)

/-- The AC loop begins (R171, R174). -/
theorem PlaceInv.startAc {d : Word} {qt : QuantTable} {j : Jd} (hp : j.phase = 2) (hb : j.blk < j.nby + 2)
    (hk : ZeroOrOneHot j.msk) (hc : j.loopX.toNat < j.width.toNat ∧ j.loopY.toNat < j.height.toNat) :
    PlaceInv (startAc d qt j) :=
  .insideBlock JdMode.inBlock_huffAc hp hb ⟨hk, hk⟩ hc nofun fun _ => ⟨Nat.le_refl 1, (by decide : 1 < 64)⟩

/-! The bit reader and HUFFEXT. -/

theorem ZeroOrOneHot.bit6 : ZeroOrOneHot 0x40 := by
  unfold ZeroOrOneHot
  decide

theorem ZeroOrOneHot.bit7 : ZeroOrOneHot 0x80 := by
  unfold ZeroOrOneHot
  decide

/-- BITEXT leaves a mask that is 0 or one-hot (R30, R152). -/
theorem bitextLoop_mask {n : Nat} {v : Half} {m c : Byte} {s t : State} {r : Half × Byte × Byte} (hm : ZeroOrOneHot m)
    (h : bitextLoop n v m c s = .ok r t) : ZeroOrOneHot r.2.1 := by
  induction n generalizing v m c s with
  | zero => cases h; exact hm
  | succ n ih =>
    unfold bitextLoop at h
    split at h
    · cases hf : fetchData s with
      | ok b u => rw [hf] at h; exact ih ZeroOrOneHot.bit6 h
      | ends r u => rw [hf] at h; cases h
      | fault f => rw [hf] at h; cases h
    · exact ih (ZeroOrOneHot.shift m hm) h

theorem bitext_keeps {m : JdMode} {s : State} (n : Nat) (h : Decoding m s) : (bitext n s).Keeps (Decoding m) := by
  have hread := bitextLoop_readsOnly n 0 s.jd.msk s.jd.cur s
  unfold bitext
  cases hx : bitextLoop n 0 s.jd.msk s.jd.cur s with
  | ok r t =>
    rw [hx] at hread
    have ht : Decoding m t := h.reads hread
    have hmask : ZeroOrOneHot r.2.1 := bitextLoop_mask h.place.masks.1 hx
    exact ⟨ht.update ⟨rfl⟩ { ht.place with masks := ⟨hmask, ht.place.masks.2⟩ }, ht.mode, ht.decoding⟩
  | ends r t =>
    rw [hx] at hread
    exact .of_read (h.inv.reads hread.2) hread.1
  | fault f =>
    rw [hx] at hread
    exact h.inv.not_beyond hread.2

/-- The de-quantizer of a block is there (R130). -/
theorem blockQuant_keeps {m : JdMode} {s : State} (h : Decoding m s) : (blockQuant s).Keeps (Decoding m) := by
  unfold blockQuant
  split
  · exact h
  · rename_i hq
    have := h.decodable.quant s.jd.blockCmp
    rw [hq] at this
    cases this

theorem huffMatch_mem {t : HuffTable} {j n : Nat} {v : Half} {b : Byte} (h : huffMatch t j n v = some b) : b ∈ t.val := by
  unfold huffMatch at h
  obtain ⟨cv, hcv, rfl⟩ := Option.map_eq_some_iff.mp h
  have hmem : cv ∈ t.code.zip t.val := List.mem_of_mem_drop (List.mem_of_mem_take (List.mem_of_find?_eq_some hcv))
  exact (List.of_mem_zip hmem).2

/-- The state after a match of HUFFEXT (R153). -/
def Jd.matched (j : Jd) (found : JdMode) : Jd := { j with cur := j.hx.c, msk := j.hx.m >>> 1, mode := found }

/-- One length class of HUFFEXT keeps the invariant where a match, by a value of the table, does (R153). -/
theorem huffBit_keeps {m : JdMode} {t : HuffTable} {found : Byte → JdMode} {s : State} (h : Decoding m s)
    (hfound : ∀ b ∈ t.val, PlaceInv (s.jd.matched (found b))) : (huffBit t found s).Keeps JdInv := by
  unfold huffBit
  dsimp only
  split
  · rename_i b hb
    exact h.update ⟨rfl⟩ (hfound b (huffMatch_mem hb))
  · split
    · exact h.ends (by decide)
    · exact h.update ⟨rfl⟩ { h.place with masks := ⟨h.place.masks.1, ZeroOrOneHot.shift _ h.place.masks.2⟩ }

theorem JdMode.decoding_of_entropy {m : JdMode} (h : m.port = some .entropy) : m.decoding := by
  cases m <;> cases h <;> simp [JdMode.decoding, JdMode.phase]

/-- Source bytes fetched at the port of the place keep the invariant. -/
theorem SourceFetch.keeps {port : Port} {s : State} {x : Fetched} (hx : SourceFetch port s x) (h : JdInv s)
    (hport : s.jd.mode.port = some port) : x.KeepsJdInv := by
  cases hx with
  | run hr hp => exact ⟨h.reads hr, fun _ => by rw [hr.mode, hp, hport]⟩
  | @feeds b t hr hp =>
    have hd : t.jd.mode.decoding := JdMode.decoding_of_entropy (by rw [hr.mode, hport, hp])
    have ht : Decoding t.jd.mode t := ⟨h.reads hr, rfl, hd⟩
    exact ht.update ⟨rfl⟩ { ht.place with masks := ⟨ht.place.masks.1, ZeroOrOneHot.bit7⟩ }
  | ends hr hread => exact (MayEnd.of_read (h.reads hread) hr).jdInv
  | fault hlt => exact h.not_beyond hlt

/-- A step of HUFFEXT keeps the invariant where a match does (R153). -/
theorem huffStep_keeps {m : JdMode} {cls : Bool} {found : Byte → JdMode} {s : State} (h : Decoding m s)
    (hport : m.port = some .entropy)
    (hfound : ∀ id t, s.jd.huff.get id cls = some t → ∀ b ∈ t.val, PlaceInv (s.jd.matched (found b))) :
    (huffStep cls found s).KeepsJdInv := by
  unfold huffStep
  split
  · exact (fetchEntropy_sourceFetch s).keeps h.inv (h.mode ▸ hport)
  · split
    · rename_i t ht
      exact (huffBit_keeps h (hfound _ t ht)).moved
    · rename_i hnone
      have := h.decodable.huff (s.jd.tableId s.jd.blk) cls
      rw [hnone] at this
      cases this

theorem huffStep_dc_keeps {s : State} (h : Decoding .huffDc s) : (huffStep false .symbolDc s).KeepsJdInv := by
  obtain ⟨hblk, hcorner⟩ := h.inBlock JdMode.inBlock_huffDc
  refine huffStep_keeps h rfl fun id t ht b hb => ?_
  refine .insideBlock (JdMode.inBlock_symbolDc b) h.phase hblk ⟨ZeroOrOneHot.shift _ h.place.masks.2, h.place.masks.2⟩ hcorner
    (fun b' hb' => ?_) (by rintro (h | ⟨b, h⟩) <;> cases h)
  cases hb'
  exact h.inv.dcValues id t ht b hb

theorem huffStep_ac_keeps {s : State} (h : Decoding .huffAc s) : (huffStep true .symbolAc s).KeepsJdInv := by
  obtain ⟨hblk, hcorner⟩ := h.inBlock JdMode.inBlock_huffAc
  refine huffStep_keeps h rfl fun id t ht b hb => ?_
  exact .insideBlock (JdMode.inBlock_symbolAc b) h.phase hblk ⟨ZeroOrOneHot.shift _ h.place.masks.2, h.place.masks.2⟩ hcorner
    nofun fun _ => h.place.coef (.inl h.mode)

/-! The symbols. -/

theorem Jd.setDcv_frame (j : Jd) (cmp : Nat) (v : Half) :
    j.setDcv cmp v = { j with
      dcv0 := (j.setDcv cmp v).dcv0, dcv1 := (j.setDcv cmp v).dcv1, dcv2 := (j.setDcv cmp v).dcv2 } := by
  unfold Jd.setDcv
  split_ifs <;> rfl

/-- The AC loop begins, with a predictor written or not (R171, R173). -/
theorem startAc_jdInv {b : Byte} {s : State} (h : Decoding (.symbolDc b) s) (d : Word) (qt : QuantTable) {j : Jd}
    (hj : j = { s.jd with dcv0 := j.dcv0, dcv1 := j.dcv1, dcv2 := j.dcv2 }) : JdInv (s.setJd (startAc d qt j)) := by
  obtain ⟨hblk, hcorner⟩ := h.inBlock (JdMode.inBlock_symbolDc b)
  rw [hj]
  exact h.update ⟨rfl⟩ (.startAc h.phase hblk h.place.masks.1 hcorner)

theorem execDcClass0_keeps {b : Byte} {s : State} (h : Decoding (.symbolDc b) s) : KeepsJdInv (execDcClass0 s) := by
  refine Res.Keeps.finish ((blockQuant_keeps h).bind fun qt t ht => ?_)
  exact startAc_jdInv ht _ qt rfl

theorem execDcClass_keeps {b : Byte} {s : State} (ssss : BitVec 4) (h : Decoding (.symbolDc b) s) :
    KeepsJdInv (execDcClass ssss s) := by
  refine Res.Keeps.finish ((blockQuant_keeps h).bind fun qt t ht => (bitext_keeps _ ht).bind fun v u hu => ?_)
  exact startAc_jdInv hu _ qt (Jd.setDcv_frame _ _ _)

/-- The run of an AC symbol stays inside the block (R175). -/
theorem acRun_keeps {b : Byte} {s : State} (rrrr : BitVec 4) (h : Decoding (.symbolAc b) s) :
    (acRun rrrr s).Keeps (Decoding (.symbolAc b)) := by
  rcases acRun_cases rrrr s with ⟨e, -⟩ | ⟨e, hr⟩
  · rw [e]
    exact h.ends (by decide)
  · rw [e]
    obtain ⟨h1, h64⟩ := h.place.coef (.inr ⟨b, h.mode⟩)
    have hcoef : 1 ≤ s.jd.coefIdx + rrrr.toNat ∧ s.jd.coefIdx + rrrr.toNat < 64 := by
      refine ⟨by omega, ?_⟩
      rcases hr with rfl | hr
      · simpa using h64
      · exact hr
    exact ⟨h.update ⟨rfl⟩ { h.place with coef := fun _ => hcoef }, h.mode, h.decoding⟩

theorem leaveAc_jdInv {b : Byte} {s : State} (h : Decoding (.symbolAc b) s) (k : Nat) :
    JdInv (s.setJd { s.jd with coefIdx := k, mode := .transform }) := by
  obtain ⟨hblk, hcorner⟩ := h.inBlock (JdMode.inBlock_symbolAc b)
  exact h.update ⟨rfl⟩ (.insideBlock JdMode.inBlock_transform h.phase hblk h.place.masks hcorner nofun
    (by rintro (h | ⟨b, h⟩) <;> cases h))

theorem acNext_jdInv {b : Byte} {s : State} (h : Decoding (.symbolAc b) s) : JdInv (acNext s) := by
  obtain ⟨hblk, hcorner⟩ := h.inBlock (JdMode.inBlock_symbolAc b)
  unfold acNext
  split
  · exact leaveAc_jdInv h _
  · rename_i hlt
    exact h.update ⟨rfl⟩ (.insideBlock JdMode.inBlock_huffAc h.phase hblk ⟨h.place.masks.1, h.place.masks.1⟩ hcorner nofun
      fun _ => ⟨Nat.le_add_left 1 _, Nat.lt_of_not_le hlt⟩)

theorem execAcRunSkip_keeps {b : Byte} {s : State} (rrrr : BitVec 4) (h : Decoding (.symbolAc b) s) :
    KeepsJdInv (execAcRunSkip rrrr s) :=
  Res.Keeps.finish ((acRun_keeps rrrr h).bind fun _ _ ht => acNext_jdInv ht)

theorem execAcRunSize_keeps {b : Byte} {s : State} (rrrr ssss : BitVec 4) (h : Decoding (.symbolAc b) s) :
    KeepsJdInv (execAcRunSize rrrr ssss s) := by
  refine Res.Keeps.finish ((acRun_keeps rrrr h).bind fun _ t ht => (blockQuant_keeps ht).bind fun qt u hu =>
    (bitext_keeps _ hu).bind fun v w hw => acNext_jdInv (b := b) ?_)
  exact ⟨hw.update ⟨rfl⟩ { hw.place with }, hw.mode, hw.decoding⟩

theorem execAcBadClass_keeps {b : Byte} {s : State} (rrrr ssss : BitVec 4) (h : Decoding (.symbolAc b) s) :
    KeepsJdInv (execAcBadClass rrrr ssss s) :=
  Res.Keeps.finish ((acRun_keeps rrrr h).bind fun _ _ ht => ht.ends (by decide))

/-- A symbol of a DC table decodes, because it is at most 11 (R95, R127). -/
theorem fetchSymbol_dc_keeps {b : Byte} {s : State} (h : Decoding (.symbolDc b) s) :
    (fetchSymbol .dcSymbol b s).KeepsJdInv := by
  obtain ⟨i, hi⟩ := dcInstr_isOk (h.place.dcSymbol b h.mode)
  have hd : decode .dcSymbol [b] = .ok i := hi
  unfold fetchSymbol
  rw [hd]
  exact ⟨h.inv, fun _ => by rw [h.mode, decode_portOf hd]; rfl⟩

theorem fetchSymbol_ac_keeps {b : Byte} {s : State} (h : Decoding (.symbolAc b) s) :
    (fetchSymbol .acSymbol b s).KeepsJdInv :=
  ⟨h.inv, fun _ => by rw [h.mode, acInstr_portOf]; rfl⟩

/-! The blocks and the MCU loop. -/

theorem transform_frame (j : Jd) : transform j = { j with tmp := (transform j).tmp, mcubuf := (transform j).mcubuf } := by
  unfold transform
  split <;> rfl

theorem transformStep_jdInv {s : State} (h : Decoding .transform s) : JdInv (transformStep s) := by
  obtain ⟨hblk, hcorner⟩ := h.inBlock JdMode.inBlock_transform
  unfold transformStep
  rw [transform_frame]
  dsimp only
  split
  · rename_i hlt
    exact h.update ⟨rfl⟩ (.startBlock h.phase hlt h.place.masks.1 hcorner)
  · exact h.update ⟨rfl⟩ (.aroundBlocks (.inr (.inl rfl)) h.phase h.place.masks hcorner)

/-- The MCU loop head begins an MCU inside the image, steps to the next row, or ends DECOMP (R202, R211). -/
theorem mcuStep_keeps {s : State} (h : Decoding .mcu s) : (mcuStep s).Keeps JdInv := by
  unfold mcuStep
  dsimp only
  split_ifs with hy hx hn hr
  · exact h.update ⟨rfl⟩ (.startBlock h.phase (Nat.succ_pos _) h.place.masks.1 ⟨hx, hy⟩)
  · exact h.update ⟨rfl⟩ (.aroundBlocks (.inl rfl) h.phase h.place.masks ⟨hx, hy⟩)
  · exact h.update ⟨rfl⟩ (.startBlock h.phase (Nat.succ_pos _) h.place.masks.1 ⟨hx, hy⟩)
  · exact h.update ⟨rfl⟩ (.mcu h.mode h.phase h.place.masks)
  · exact ⟨h.inv, by decide, fun _ h1 => absurd (h.phase.symm.trans h1) (by decide)⟩

theorem execMkRstn_keeps {s : State} (n : BitVec 3) (h : Decoding .restart s) : KeepsJdInv (execMkRstn n s) := by
  have hcorner := h.place.corner (h.mode ▸ JdMode.inMcu_restart)
  unfold execMkRstn
  split
  · exact h.update ⟨rfl⟩ (.startBlock h.phase (Nat.succ_pos _) ZeroOrOneHot.zero hcorner)
  · exact Res.Keeps.finish (h.ends (by decide))

theorem outputStep_jdInv {s : State} (h : Decoding .output s) : JdInv (outputStep s) := by
  have hcorner := h.place.corner (h.mode ▸ JdMode.inMcu_output)
  have hj : JdInv (s.setJd { s.jd with rect := tileRect s.jd, tile := croppedTile s.jd, phase := 3, mode := .tile }) :=
    h.update ⟨rfl⟩ (.aroundBlocks (.inr (.inr rfl)) rfl h.place.masks hcorner)
  exact { hj with }

/-- The tile answer goes on with the MCU loop, or cancels DECOMP with INTR (R210). -/
theorem answerTile_jdInv {s : State} (accept : Bool) (h : JdInv s) : JdInv (answerTile accept s) := by
  unfold answerTile
  split
  · rename_i hm
    have ht : Decoding .tile s := ⟨h, hm, JdMode.inMcu_tile.1⟩
    split
    · exact ht.update ⟨rfl⟩ (.mcu rfl rfl ht.place.masks)
    · exact (MayEnd.of_ne_ok h (by decide)).jdInv
  · exact h


/-! The moves that leave the JD unit: what RX, TXP, TXC, the camera and the plain register accesses do. -/

/-- `t` has the JD unit and the parameters of `s`, and a frame length of `t` is that of `s` or fits in a buffer (R235). -/
structure LeavesJd (s t : State) : Prop where
  jd : t.jd = s.jd
  params : t.params = s.params
  frameLen : ∀ b, t.rx.frameLen b = s.rx.frameLen b ∨ (t.rx.frameLen b).toNat ≤ s.params.rxBufSize

theorem LeavesJd.refl (s : State) : LeavesJd s s := ⟨rfl, rfl, fun _ => .inl rfl⟩

theorem LeavesJd.trans {s t u : State} (h : LeavesJd s t) (h' : LeavesJd t u) : LeavesJd s u where
  jd := h'.jd.trans h.jd
  params := h'.params.trans h.params
  frameLen b := by
    rcases h'.frameLen b with e | hle
    · rw [e]; exact h.frameLen b
    · rw [h.params] at hle; exact .inr hle

/-- Where the JD unit and the parameters stay, the invariant stays. -/
theorem LeavesJd.jdInv {s t : State} (h : LeavesJd s t) (hs : JdInv s) : JdInv t := by
  have hlen : ∀ b, (t.rx.frameLen b).toNat ≤ t.params.rxBufSize := by
    intro b
    rw [h.params]
    rcases h.frameLen b with e | hle
    · rw [e]; exact hs.frameLen b
    · exact hle
  obtain ⟨-, srcLen, srcPos, busy, phase, result, used, sampling, prepared, decoding, dcValues, dcSymbol, block, coef, masks,
    corner⟩ := hs
  rw [← h.params] at srcLen used
  rw [← h.jd] at *
  exact ⟨hlen, srcLen, srcPos, busy, phase, result, used, sampling, prepared, decoding, dcValues, dcSymbol, block, coef, masks,
    corner⟩

theorem State.turn_leavesJd (s : State) : LeavesJd s s.turn.2 := by
  unfold State.turn
  split <;> exact ⟨rfl, rfl, fun _ => .inl rfl⟩

theorem dropDatagram_leavesJd (r : DropReason) (s : State) : LeavesJd s (dropDatagram r s) := ⟨rfl, rfl, fun _ => .inl rfl⟩

theorem rxWriteBytes_leavesJd (b : Bool) (a : Nat) (vs : List Byte) (s : State) : LeavesJd s (rxWriteBytes b a vs s) := by
  rw [rxWriteBytes_frame]
  exact ⟨by simp, by simp, by simp⟩

theorem cameraWrite_leavesJd (a : Nat) (vs : List Byte) (s : State) : LeavesJd s (cameraWrite a vs s) := by
  rw [cameraWrite_frame]
  exact ⟨rfl, rfl, fun _ => .inl rfl⟩

theorem completeHeader_leavesJd (off size : Nat) (s : State) : LeavesJd s (completeHeader off size s) :=
  (rxWriteBytes_leavesJd _ _ _ s).trans ⟨rfl, rfl, fun _ => .inl rfl⟩

/-- The length of a completed frame fits in a buffer (R235, R241). -/
theorem completeFrame_leavesJd {off size : Nat} {s : State} (h : off + size ≤ s.params.rxBufSize) :
    LeavesJd s (completeFrame off size s) := by
  have hrx : ∀ b, (completeFrame off size s).rx.frameLen b =
      (s.rx.setFrameLen s.rx.fillIdx (BitVec.ofNat 24 (off + size))).frameLen b := fun _ => rfl
  refine ⟨?_, ?_, fun b => ?_⟩
  · unfold completeFrame
    dsimp only
    split <;> rfl
  · unfold completeFrame
    dsimp only
    split <;> rfl
  · rw [hrx]
    by_cases hb : b = s.rx.fillIdx
    · subst hb
      rw [Rx.setFrameLen_frameLen_same, BitVec.toNat_ofNat]
      exact .inr ((Nat.mod_le _ _).trans h)
    · rw [(Bool.eq_not_of_ne hb : b = !s.rx.fillIdx), Rx.setFrameLen_frameLen_not]
      exact .inl rfl

theorem placeFragment_leavesJd (base : Nat) {complete : Nat → Nat → State → State}
    (hc : ∀ off size t, off + size ≤ t.params.rxBufSize → LeavesJd t (complete off size t)) (p : Packet) (s : State) :
    LeavesJd s (placeFragment base complete p s) := by
  unfold placeFragment
  split
  · exact dropDatagram_leavesJd _ s
  · dsimp only
    split_ifs with hsize hshort hbounds
    · exact dropDatagram_leavesJd _ s
    · exact dropDatagram_leavesJd _ s
    · exact dropDatagram_leavesJd _ s
    · have hw := rxWriteBytes_leavesJd s.rx.fillIdx (base + BitVec.toNat ‹Byte› * Config.fragMax)
        (List.take p.size.toNat ‹List Byte›) s
      refine hw.trans (hc _ _ _ ?_)
      rw [hw.params]
      omega
    · exact rxWriteBytes_leavesJd _ _ _ s

theorem passThrough_leavesJd (t : Byte) (p : Packet) (s : State) : LeavesJd s (passThrough t p s) := by
  unfold passThrough
  split
  · exact dropDatagram_leavesJd _ s
  · exact ⟨rfl, rfl, fun _ => .inl rfl⟩

theorem release_leavesJd (s : State) : LeavesJd s (release s) := by
  rw [release_frame]
  exact ⟨rfl, rfl, fun _ => .inl rfl⟩

theorem txcAck_leavesJd (s : State) : LeavesJd s (txcAck s) := by
  refine LeavesJd.trans ?_ (release_leavesJd _)
  exact ⟨rfl, rfl, fun _ => .inl rfl⟩

theorem tick_leavesJd (s : State) : LeavesJd s (tick s) := by
  unfold tick
  dsimp only
  split
  · refine LeavesJd.trans ?_ (release_leavesJd _)
    exact ⟨rfl, rfl, fun _ => .inl rfl⟩
  · exact ⟨rfl, rfl, fun _ => .inl rfl⟩

theorem txDone_leavesJd (s : State) : LeavesJd s (txDone s) := by
  unfold txDone
  split <;> exact ⟨rfl, rfl, fun _ => .inl rfl⟩

theorem sendAck_leavesJd (s : State) : LeavesJd s (sendAck s) := ⟨rfl, rfl, fun _ => .inl rfl⟩

theorem sendFragment_leavesJd (s : State) : LeavesJd s (sendFragment s) := by
  unfold sendFragment
  dsimp only
  split <;> exact ⟨rfl, rfl, fun _ => .inl rfl⟩

theorem txpStep_leavesJd (s : State) : LeavesJd s (txpStep s) := by
  have hdraw : LeavesJd s s.draw := ⟨rfl, rfl, fun _ => .inl rfl⟩
  unfold txpStep
  split_ifs
  · exact sendFragment_leavesJd s
  · exact hdraw.trans (sendAck_leavesJd _)
  · exact hdraw.trans (sendFragment_leavesJd _)
  · exact sendAck_leavesJd s

theorem take_leavesJd (s : State) : LeavesJd s (take s) := by
  unfold take
  split <;> exact ⟨rfl, rfl, fun _ => .inl rfl⟩

theorem clrSticky_leavesJd (s : State) : LeavesJd s (clrSticky s) := ⟨rfl, rfl, fun _ => .inl rfl⟩

theorem regWrite_leavesJd (off : Nat) (w : Word) (s : State) : LeavesJd s (regWrite off w s) := by
  unfold regWrite
  split_ifs <;> exact ⟨rfl, rfl, fun _ => .inl rfl⟩

/-- A reset leaves the environment's side (R331) and the JD unit of the reset state. -/
theorem hwReset_jdInv (s : State) : JdInv (hwReset s) :=
  LeavesJd.jdInv (s := State.resetWith s.params (s.epoch + 1)) ⟨rfl, rfl, fun _ => .inl rfl⟩
    (State.resetWith_jdInv s.params (s.epoch + 1))

/-! The host's JD commands (R21). -/

theorem prepareInit_jdInv {b : Bool} {s : State} (h : JdInv s) : JdInv (prepareInit b (acceptCommand s)) where
  frameLen := h.frameLen
  srcLen := h.frameLen b
  srcPos := Nat.zero_le _
  busy := ⟨fun _ => nofun, fun _ => rfl⟩
  phase := rfl
  result := h.result
  used := Nat.zero_le _
  sampling := .inl ⟨rfl, rfl⟩
  prepared := nofun
  decoding hd := absurd hd (JdMode.not_decoding_of_phase_one rfl)
  dcValues id t ht := by cases id <;> cases ht
  dcSymbol := nofun
  block hb := absurd hb.1.1 (JdMode.not_decoding_of_phase_one rfl)
  coef hc := by rcases hc with hc | ⟨b, hc⟩ <;> cases hc
  masks := ⟨ZeroOrOneHot.zero, h.masks.2⟩
  corner hb := absurd hb.1 (JdMode.not_decoding_of_phase_one rfl)

/-- DECOMP begins at the MCU loop head, where PREPARE has left all it uses (R200, R201). -/
theorem decompInit_jdInv {s : State} (h : JdInv s) (hp : s.jd.prepared = true) : JdInv (decompInit (acceptCommand s)) where
  frameLen := h.frameLen
  srcLen := h.srcLen
  srcPos := h.srcPos
  busy := ⟨fun _ => nofun, fun _ => rfl⟩
  phase := rfl
  result := h.result
  used := h.used
  sampling := h.sampling
  prepared := nofun
  decoding _ := { (h.prepared hp).2 with }
  dcValues := h.dcValues
  dcSymbol := nofun
  block hb := absurd rfl hb.1.2
  coef hc := by rcases hc with hc | ⟨b, hc⟩ <;> cases hc
  masks := h.masks
  corner hb := absurd rfl hb.2

theorem decompStart_jdInv {s : State} (h : JdInv s) : JdInv (decompStart (acceptCommand s)) := by
  unfold decompStart
  split
  · exact decompInit_jdInv h ‹_›
  · exact (MayEnd.of_ne_ok h (by decide) : MayEnd .par s).jdInv.setFlags true false

theorem jdCommand_keeps {run : State → State} {s : State} (h : JdInv s) (hrun : JdInv (run (acceptCommand s))) :
    KeepsJdInv (jdCommand run s) := by
  unfold jdCommand
  split
  · exact h.setFlags s.jd.done true
  · exact hrun


/-! The step. -/

/-- The place at which an instruction of a port runs. -/
theorem JdMode.of_port {m : JdMode} {p : Port} (h : m.port = some p) :
    match p with
    | .soi => m = .soi
    | .header => m = .marker
    | .restart => m = .restart
    | .entropy => m = .huffDc ∨ m = .huffAc
    | .dcSymbol => ∃ b, m = .symbolDc b
    | .acSymbol => ∃ b, m = .symbolAc b
    | .radio => False
    | .reg _ => False := by
  cases m <;> cases h <;> simp

/-- An instruction that JD decodes, run at its place, keeps the invariant. -/
theorem exec_decodedByJd_keeps {i : Instr} {s : State} (h : JdInv s) (hport : s.jd.mode.port = some (portOf i)) :
    KeepsJdInv (exec i s) := by
  have hp := JdMode.of_port hport
  cases i with
  | mkSoi => exact (nextMarker_keeps ⟨h, by rw [h.phase, hp]; rfl⟩).finish
  | mkSof0 lseg => exact (withBody_keeps ⟨h, by rw [h.phase, hp]; rfl⟩ fun _ _ => sof0Body_keeps).finish
  | mkDht lseg => exact (withBody_keeps ⟨h, by rw [h.phase, hp]; rfl⟩ fun _ _ => dhtBody_keeps).finish
  | mkDqt lseg => exact (withBody_keeps ⟨h, by rw [h.phase, hp]; rfl⟩ fun _ _ => dqtBody_keeps).finish
  | mkDri lseg => exact (withBody_keeps ⟨h, by rw [h.phase, hp]; rfl⟩ fun _ _ => driBody_keeps).finish
  | mkSos lseg => exact (withBody_keeps ⟨h, by rw [h.phase, hp]; rfl⟩ fun _ _ => sosBody_keeps).finish
  | mkSof1Reject lseg | mkSof2Reject lseg | mkSof3Reject lseg | mkSof5Reject lseg | mkSof6Reject lseg | mkSof7Reject lseg
  | mkSof9Reject lseg | mkSof10Reject lseg | mkSof11Reject lseg | mkSof13Reject lseg | mkSof14Reject lseg
  | mkSof15Reject lseg | mkEoiReject lseg => exact (rejectSegment_keeps ⟨h, by rw [h.phase, hp]; rfl⟩).finish
  | mkOther c lseg =>
    have hs : Parsing s := ⟨h, by rw [h.phase, hp]; rfl⟩
    exact (withSegment_keeps hs fun _ => skipSegment_keeps hs).finish
  | mkRstn n => exact execMkRstn_keeps n ⟨h, hp, JdMode.inMcu_restart.1⟩
  | edStuffedFF =>
    have hs : Decoding s.jd.mode s := ⟨h, rfl, JdMode.decoding_of_entropy hport⟩
    exact hs.update ⟨rfl⟩ { hs.place with masks := ⟨hs.place.masks.1, ZeroOrOneHot.bit7⟩ }
  | edMarkerInData xx => exact (MayEnd.of_read h (.inr rfl)).jdInv
  | dcClass0 =>
    obtain ⟨b, hb⟩ := hp
    exact execDcClass0_keeps ⟨h, hb, (JdMode.inBlock_symbolDc b).1.1⟩
  | dcClass ssss =>
    obtain ⟨b, hb⟩ := hp
    exact execDcClass_keeps ssss ⟨h, hb, (JdMode.inBlock_symbolDc b).1.1⟩
  | acEob =>
    obtain ⟨b, hb⟩ := hp
    exact leaveAc_jdInv ⟨h, hb, (JdMode.inBlock_symbolAc b).1.1⟩ s.jd.coefIdx
  | acZrl =>
    obtain ⟨b, hb⟩ := hp
    exact execAcRunSkip_keeps 15 ⟨h, hb, (JdMode.inBlock_symbolAc b).1.1⟩
  | acRunSkip rrrr =>
    obtain ⟨b, hb⟩ := hp
    exact execAcRunSkip_keeps rrrr ⟨h, hb, (JdMode.inBlock_symbolAc b).1.1⟩
  | acRunSize rrrr ssss =>
    obtain ⟨b, hb⟩ := hp
    exact execAcRunSize_keeps rrrr ssss ⟨h, hb, (JdMode.inBlock_symbolAc b).1.1⟩
  | acBadClass rrrr ssss =>
    obtain ⟨b, hb⟩ := hp
    exact execAcBadClass_keeps rrrr ssss ⟨h, hb, (JdMode.inBlock_symbolAc b).1.1⟩
  | _ => exact hp.elim

/-- An instruction keeps the invariant: a datagram or a command word anywhere, one that JD decodes at its place. -/
theorem exec_keepsJdInv {i : Instr} {s : State} (h : JdInv s)
    (hport : decodedByJd (portOf i) = true → s.jd.mode.port = some (portOf i)) : KeepsJdInv (exec i s) := by
  cases i with
  | pktAck p =>
    refine LeavesJd.jdInv ?_ h
    split
    · exact dropDatagram_leavesJd _ s
    · exact txcAck_leavesJd s
  | pktInitialHeaderData p =>
    exact (placeFragment_leavesJd _ (fun off size t _ => completeHeader_leavesJd off size t) p s).jdInv h
  | pktFrameData p => exact (placeFragment_leavesJd _ (fun _ _ _ hle => completeFrame_leavesJd hle) p s).jdInv h
  | pktNak p | pktTelemetry p | pktPing p | pktSwitchChannel p | pktTxPowerUpdate p | pktEnableLed p =>
    exact (passThrough_leavesJd _ p s).jdInv h
  | pktUnknown type p => exact (dropDatagram_leavesJd _ s).jdInv h
  | jdNop buf => exact h
  | jdPrepare buf => exact jdCommand_keeps h (prepareInit_jdInv h)
  | jdDecomp buf => exact jdCommand_keeps h (decompStart_jdInv h)
  | jdReserved buf => exact h.setFlags s.jd.done true
  | rxTake clr =>
    refine LeavesJd.jdInv ?_ h
    split
    · exact (take_leavesJd s).trans (clrSticky_leavesJd _)
    · exact take_leavesJd s
  | rxClrSticky => exact (clrSticky_leavesJd s).jdInv h
  | txcCaptureReq =>
    change KeepsJdInv (execTxcCaptureReq s)
    unfold execTxcCaptureReq
    split_ifs
    · exact h
    all_goals exact LeavesJd.jdInv (s := s) ⟨rfl, rfl, fun _ => .inl rfl⟩ h
  | txcFragStart frame =>
    change KeepsJdInv (execTxcFragStart frame s)
    unfold execTxcFragStart
    dsimp only
    split_ifs
    · exact h
    all_goals exact LeavesJd.jdInv (s := s) ⟨rfl, rfl, fun _ => .inl rfl⟩ h
  | intW1c clear => exact LeavesJd.jdInv (s := s) ⟨rfl, rfl, fun _ => .inl rfl⟩ h
  | _ => exact exec_decodedByJd_keeps h (hport rfl)

/-- What JD does in its turn keeps the invariant, place by place. -/
theorem jdFetch_keepsJdInv {s : State} (h : JdInv s) : (jdFetch s).KeepsJdInv := by
  unfold jdFetch
  cases hm : s.jd.mode with
  | idle => exact h
  | tile => exact h
  | soi => exact (fetchMarker_sourceFetch _ _ s).keeps h (by rw [hm]; rfl)
  | marker => exact (fetchMarker_sourceFetch _ _ s).keeps h (by rw [hm]; rfl)
  | restart => exact (fetchMarker_sourceFetch _ _ s).keeps h (by rw [hm]; rfl)
  | mcu => exact (mcuStep_keeps ⟨h, hm, JdMode.decoding_mcu⟩).moved
  | huffDc => exact huffStep_dc_keeps ⟨h, hm, JdMode.inBlock_huffDc.1.1⟩
  | huffAc => exact huffStep_ac_keeps ⟨h, hm, JdMode.inBlock_huffAc.1.1⟩
  | symbolDc b => exact fetchSymbol_dc_keeps ⟨h, hm, (JdMode.inBlock_symbolDc b).1.1⟩
  | symbolAc b => exact fetchSymbol_ac_keeps ⟨h, hm, (JdMode.inBlock_symbolAc b).1.1⟩
  | transform => exact transformStep_jdInv ⟨h, hm, JdMode.inBlock_transform.1.1⟩
  | output => exact outputStep_jdInv ⟨h, hm, JdMode.inMcu_output.1⟩

/-- Bytes decoded at a port of the environment are no instruction of JD. -/
theorem not_decodedByJd {p : Port} {bs : List Byte} {i : Instr} (h : decode p bs = .ok i) (hp : decodedByJd p = false) :
    ¬ decodedByJd (portOf i) = true := by
  rw [decode_portOf h, hp]
  exact nofun

theorem radioFetch_keepsJdInv (d : List Byte) {s : State} (h : JdInv s) : (radioFetch d s).KeepsJdInv := by
  unfold radioFetch
  split
  · exact ⟨h, fun hj => absurd hj (not_decodedByJd ‹_› rfl)⟩
  · exact (dropDatagram_leavesJd _ s).jdInv h
  · exact (dropDatagram_leavesJd _ s).jdInv h

theorem writeFetch_keepsJdInv (off n : Nat) (w : Word) {s : State} (h : JdInv s) :
    (writeFetch off n w s).KeepsJdInv := by
  unfold writeFetch
  split
  · split
    · exact ⟨h, fun hj => absurd hj (not_decodedByJd ‹_› rfl)⟩
    · exact (regWrite_leavesJd off w s).jdInv h
  · rfl

theorem inputFetch_keepsJdInv (i : Input) {s : State} (h : JdInv s) : (inputFetch i s).KeepsJdInv := by
  cases i with
  | radio d => exact radioFetch_keepsJdInv d h
  | regWrite off n w => exact writeFetch_keepsJdInv off n w h
  | regRead off n =>
    unfold inputFetch
    dsimp only
    split
    · exact LeavesJd.jdInv (s := s) ⟨rfl, rfl, fun _ => .inl rfl⟩ h
    · rfl
  | tileAnswer accept => exact answerTile_jdInv accept h
  | txdone => exact (txDone_leavesJd s).jdInv h
  | tick => exact (tick_leavesJd s).jdInv h
  | camera a bytes => exact (cameraWrite_leavesJd a bytes s).jdInv h
  | reset => exact hwReset_jdInv s

theorem turnFetch_keepsJdInv (turn : Turn) {s : State} (h : JdInv s) : (turnFetch turn s).KeepsJdInv := by
  cases turn with
  | env =>
    unfold turnFetch envFetch
    dsimp only
    split
    · exact h
    · rename_i rest _
      exact inputFetch_keepsJdInv _ (LeavesJd.jdInv (s := s) (t := { s with inputs := rest }) ⟨rfl, rfl, fun _ => .inl rfl⟩ h)
  | jd => exact jdFetch_keepsJdInv h
  | txp =>
    refine LeavesJd.jdInv ?_ h
    split
    · exact txpStep_leavesJd s
    · exact LeavesJd.refl s

/-! A step by what it has found to do. -/

theorem step_of_run {s t : State} {i : Instr} (h : fetch s = .run i t) : step s = exec i t := by
  unfold step
  rw [h]

theorem step_of_moved {s t : State} (h : fetch s = .moved t) : step s = .next t := by
  unfold step
  rw [h]

theorem step_of_fault {s : State} {f : Fault} (h : fetch s = .fault f) : step s = .fault f := by
  unfold step
  rw [h]

theorem step_of_refused {s : State} {r : Refusal} (h : fetch s = .refused r) : step s = .refused r := by
  unfold step
  rw [h]

/-- From a state with the invariant a step leads to one, or refuses a register access; it does not fault. -/
theorem step_keepsJdInv {s : State} (h : JdInv s) : KeepsJdInv (step s) := by
  have hf : (fetch s).KeepsJdInv := turnFetch_keepsJdInv _ (s.turn_leavesJd.jdInv h)
  cases hx : fetch s with
  | run i t =>
    rw [hx] at hf
    rw [step_of_run hx]
    exact exec_keepsJdInv hf.1 hf.2
  | moved t => rw [hx] at hf; rw [step_of_moved hx]; exact hf
  | fault f => rw [hx] at hf; exact hf.elim
  | refused r => rw [hx] at hf; rw [step_of_refused hx]; exact hf

end Sys2Proof.Machine

namespace Sys2Proof.Proofs

open Sys2Proof.Machine

/-- Settles O58: what is found to do keeps the invariant, and so does the instruction it runs. -/
theorem decoderInvariant : Obligations.DecoderInvariant := by
  intro s t h hstep
  have hk := step_keepsJdInv h
  rw [hstep] at hk
  exact hk

/-- Settles O60: a fault takes a source beyond its buffer or an absent table, which the invariant excludes; of the refusals
only that of a register access is left. -/
theorem stepsAreSafe : Obligations.StepsAreSafe := by
  intro s h
  have hk := step_keepsJdInv h
  constructor
  · intro f hf
    rw [hf] at hk
    exact hk
  · intro r hr
    rw [hr] at hk
    exact hk

end Sys2Proof.Proofs
end

section
/-! PROOFS of the statements about one step seen from outside: what a step in JD's turn touches (R44, R71, R306), what a host
access does (R43, R45), the command words that start JD (R120, R200) and take a frame (R35), and the register fields. -/

namespace Sys2Proof.Machine

/-! A step in JD's turn. -/

/-- `t` differs from `s` in what JD may touch: its unit, JD_DONE, its tile output, the record of races and the free choices. -/
structure JdTouches (s t : State) : Prop where
  frame : t = { s with
    jd := t.jd, intr := { s.intr with status := t.intr.status }, out := t.out, raced := t.raced, draws := t.draws }
  status : t.intr.status = s.intr.status ∨ t.intr.status = s.intr.status ||| 0x01
  out : t.out = s.out ∨ ∃ r px, t.out = .tile r px :: s.out

theorem JdMove.touches {s t : State} (h : JdMove s t) : JdTouches s t := by
  cases h with
  | goesOn h =>
    rw [h.frame]
    exact ⟨rfl, .inl rfl, .inl rfl⟩
  | ends r h =>
    rw [h.frame]
    exact ⟨rfl, .inr (intUpdate_no_clear _ _), .inl rfl⟩
  | putsOut => exact ⟨rfl, .inl rfl, .inr ⟨_, _, rfl⟩⟩

/-- The reads before an instruction touch no more than the instruction may. -/
theorem JdOnly.touches_trans {s t u : State} (h : JdOnly s t) (h' : JdTouches t u) : JdTouches s u := by
  rw [h.frame] at h'
  exact ⟨h'.frame, h'.status, h'.out⟩

theorem step_jdTouches {s t : State} (hturn : s.turn.1 = .jd) (h : step s = .next t) : JdTouches s.turn.2 t := by
  have hfetch : fetch s = jdFetch s.turn.2 := by
    unfold fetch
    rw [hturn]
    rfl
  have hj := jdFetch_staysInJd s.turn.2
  cases hx : jdFetch s.turn.2 with
  | run i u =>
    rw [hx] at hj
    rw [step_of_run (hfetch.trans hx)] at h
    have hmove : JdMove u t := exec_jdMove (JdMode.port_decodedByJd (jdFetch_run_port hx)) h
    exact JdOnly.touches_trans hj hmove.touches
  | moved u =>
    rw [hx] at hj
    rw [step_of_moved (hfetch.trans hx)] at h
    cases h
    exact JdMove.touches hj
  | fault f => rw [step_of_fault (hfetch.trans hx)] at h; cases h
  | refused r => rw [step_of_refused (hfetch.trans hx)] at h; cases h

theorem State.turn_schedule (s : State) : s.turn.2 = { s with schedule := s.turn.2.schedule } := by
  unfold State.turn
  split <;> rfl

/-! A step in the environment's turn. -/

/-- In the environment's turn its next input is fetched. -/
theorem fetch_env {s u : State} {input : Input} {rest : List Input} (hturn : s.turn = (.env, u))
    (hin : u.inputs = input :: rest) : fetch s = inputFetch input { u with inputs := rest } := by
  unfold fetch
  rw [hturn]
  unfold turnFetch envFetch
  rw [hin]

theorem accessOk_iff {off n : Nat} : accessOk off n = true ↔ n = 4 ∧ off % 4 = 0 ∧ off < 256 := by
  unfold accessOk
  exact decide_eq_true_iff

/-- A host write outside R43 is refused. -/
theorem writeFetch_refused {off n : Nat} (w : Word) (s : State) (h : ¬ (n = 4 ∧ off % 4 = 0 ∧ off < 256)) :
    writeFetch off n w s = .refused .registerAccess := by
  unfold writeFetch
  rw [if_neg (mt accessOk_iff.mp h)]

theorem readFetch_refused {off n : Nat} (s : State) (h : ¬ (n = 4 ∧ off % 4 = 0 ∧ off < 256)) :
    inputFetch (.regRead off n) s = .refused .registerAccess := by
  unfold inputFetch
  exact if_neg (mt accessOk_iff.mp h)

theorem readFetch_moved {off n : Nat} (s : State) (h : n = 4 ∧ off % 4 = 0 ∧ off < 256) :
    inputFetch (.regRead off n) s = .moved (s.emit (.regValue off (regRead s off))) := by
  unfold inputFetch
  exact if_pos (accessOk_iff.mpr h)

/-- The bytes of a word give the word back (R64). -/
theorem wordOfLe_leBytes (w : Word) :
    wordOfLe (w.extractLsb' 0 8) (w.extractLsb' 8 8) (w.extractLsb' 16 8) (w.extractLsb' 24 8) = w := by
  have join : ∀ lo n, w.extractLsb' (lo + 8) n ++ w.extractLsb' lo 8 = w.extractLsb' lo (n + 8) := fun _ _ =>
    BitVec.extractLsb'_append_extractLsb'_eq_extractLsb' rfl
  rw [wordOfLe, join 16 8, join 8 16, join 0 24]
  exact BitVec.extractLsb'_eq_self

/-- A host write of a word that is no command word is plain (R43). -/
theorem writeFetch_plain {off : Nat} {w : Word} (s : State) (hok : off % 4 = 0 ∧ off < 256)
    (hd : decodeRegister off w = none) : writeFetch off 4 w s = .moved (regWrite off w s) := by
  have hdec : decode (.reg off) (leBytes w) = .error .noCommand := by
    unfold decode leBytes
    dsimp only
    rw [wordOfLe_leBytes, hd]
  unfold writeFetch
  rw [if_pos (accessOk_iff.mpr ⟨rfl, hok⟩), hdec]

/-- The offsets of the command registers (R99, R100). -/
theorem decodeRegister_none {off : Nat} (w : Word) (h : off ∉ [0x00, 0x40, 0x80, 0x94, 0xC0]) :
    decodeRegister off w = none := by
  simp only [List.mem_cons, List.not_mem_nil, or_false, not_or] at h
  obtain ⟨h0, h1, h2, h3, h4⟩ := h
  unfold decodeRegister
  rw [if_neg h0, if_neg h1, if_neg h2, if_neg h3, if_neg h4]

/-- RX_CTRL with both command bits 0 is no command (R35). -/
theorem decodeRegister_rxCtrl_none {w : Word} (h0 : w.getLsbD 0 = false) (h1 : w.getLsbD 1 = false) :
    decodeRegister 0x40 w = none := by
  change (if w.getLsbD 0 then _ else if w.getLsbD 1 then _ else _) = none
  rw [h0, h1]
  rfl

/-- TXC_CTRL and TXC_FRAG_CTRL with bit 0 = 0 are no commands (R40). -/
theorem decodeRegister_txc_none {off : Nat} {w : Word} (hoff : off = 0x80 ∨ off = 0x94) (h0 : w.getLsbD 0 = false) :
    decodeRegister off w = none := by
  rcases hoff with rfl | rfl
  · change (if w.getLsbD 0 then _ else _) = none
    rw [h0]
    rfl
  · change (if w.getLsbD 0 then _ else _) = none
    rw [h0]
    rfl

theorem regWrite_ignored {off : Nat} (w : Word) (s : State) (h1 : off ≠ 0x90) (h2 : off ≠ 0xC4) :
    regWrite off w s = s := by
  unfold regWrite
  rw [if_neg h1, if_neg h2]

/-- An offset without a readable register reads 0 (R43, R45). -/
theorem regRead_unmapped (s : State) {off : Nat}
    (h : off ∉ [0x04, 0x08, 0x0C, 0x10, 0x14, 0x18, 0x1C, 0x20, 0x24, 0x44, 0x48, 0x4C, 0x50, 0x54, 0x58, 0x5C, 0x84, 0x88,
      0x8C, 0x90, 0xC0, 0xC4]) : regRead s off = 0 := by
  simp only [List.mem_cons, List.not_mem_nil, or_false, not_or] at h
  simp only [regRead, h, if_false]

/-! The host's commands. -/

theorem jdCommand_accepted {run : State → State} {s : State} (h : s.jd.busy = false) :
    jdCommand run s = .next (run (acceptCommand s)) := by
  unfold jdCommand
  rw [h]
  rfl

/-! Register fields: `n` bits of a word from bit `lo` on. A register is a concatenation whose total width is written 32, which
`no_index` lets the rules below match. -/

section
variable {v w : Nat}

theorem field_eq_extract (x : BitVec w) (lo n : Nat) : x.toNat / 2 ^ lo % 2 ^ n = (x.extractLsb' lo n).toNat := by
  rw [BitVec.extractLsb'_toNat, Nat.shiftRight_eq_div_pow]

theorem field_append_high (x : BitVec v) (y : BitVec w) {lo n : Nat} (h : w ≤ lo) :
    (HAppend.hAppend (γ := BitVec (no_index (v + w))) x y).toNat / 2 ^ lo % 2 ^ n = x.toNat / 2 ^ (lo - w) % 2 ^ n := by
  rw [field_eq_extract, field_eq_extract, BitVec.extractLsb'_append_eq_of_le h]

theorem field_append_low (x : BitVec v) (y : BitVec w) {lo n : Nat} (h : lo + n ≤ w) :
    (HAppend.hAppend (γ := BitVec (no_index (v + w))) x y).toNat / 2 ^ lo % 2 ^ n = y.toNat / 2 ^ lo % 2 ^ n := by
  rw [field_eq_extract, field_eq_extract, BitVec.extractLsb'_append_eq_of_add_le h]

theorem field_whole (x : BitVec w) : x.toNat / 2 ^ 0 % 2 ^ w = x.toNat := by
  rw [Nat.pow_zero, Nat.div_one, Nat.mod_eq_of_lt x.isLt]

/-- A register that is one field, with reserved bits above it. -/
theorem field_setWidth (x : BitVec v) (h : v ≤ w) : (x.setWidth w).toNat / 2 ^ 0 % 2 ^ w = x.toNat := by
  rw [field_whole, BitVec.toNat_setWidth_of_le h]

theorem bit_zero_append (x : BitVec v) (b : Bool) :
    (HAppend.hAppend (γ := BitVec (no_index (v + 1))) x (bit1 b)).getLsbD 0 = b := by
  rw [BitVec.getLsbD_append]
  simp [bit1]

theorem bit_succ_append (x : BitVec v) (b : Bool) (i : Nat) :
    (HAppend.hAppend (γ := BitVec (no_index (v + 1))) x (bit1 b)).getLsbD (i + 1) = x.getLsbD i := by
  rw [BitVec.getLsbD_append]
  simp

end

section
variable (s : State)

/-- JD_STATUS (R22). -/
theorem jdStatus_fields :
    (regRead s 0x04).getLsbD 0 = s.jd.busy ∧ (regRead s 0x04).getLsbD 1 = s.jd.prepared ∧
    (regRead s 0x04).getLsbD 2 = s.jd.done ∧ (regRead s 0x04).getLsbD 3 = s.jd.cmdIgnored ∧
    (regRead s 0x04).toNat / 2 ^ 4 % 2 ^ 4 = s.jd.result.code.toNat ∧
    (regRead s 0x04).toNat / 2 ^ 8 % 2 ^ 2 = s.jd.phase.toNat ∧ (regRead s 0x04).toNat / 2 ^ 10 % 2 ^ 22 = 0 := by
  have e : regRead s 0x04 = jdStatusWord s.jd := rfl
  rw [e, jdStatusWord]
  simp only [bit_zero_append, bit_succ_append, field_append_high, field_append_low, field_whole, Nat.reduceLeDiff,
    Nat.reduceAdd, Nat.reduceSub, true_and]
  rfl

/-- JD_GEOM, JD_MCUCFG and JD_QTID (R23). -/
theorem jdConfig_fields :
    (regRead s 0x08).toNat / 2 ^ 0 % 2 ^ 16 = s.jd.width.toNat ∧
    (regRead s 0x08).toNat / 2 ^ 16 % 2 ^ 16 = s.jd.height.toNat ∧
    (regRead s 0x0C).toNat / 2 ^ 0 % 2 ^ 2 = s.jd.msx.toNat ∧ (regRead s 0x0C).toNat / 2 ^ 2 % 2 ^ 2 = s.jd.msy.toNat ∧
    (regRead s 0x0C).toNat / 2 ^ 4 % 2 ^ 12 = 0 ∧ (regRead s 0x0C).toNat / 2 ^ 16 % 2 ^ 16 = s.jd.nrst.toNat ∧
    (regRead s 0x10).toNat / 2 ^ 0 % 2 ^ 2 = s.jd.qtid0.toNat ∧
    (regRead s 0x10).toNat / 2 ^ 2 % 2 ^ 2 = s.jd.qtid1.toNat ∧
    (regRead s 0x10).toNat / 2 ^ 4 % 2 ^ 2 = s.jd.qtid2.toNat ∧ (regRead s 0x10).toNat / 2 ^ 6 % 2 ^ 26 = 0 := by
  have e1 : regRead s 0x08 = s.jd.height ++ s.jd.width := rfl
  have e2 : regRead s 0x0C = s.jd.nrst ++ (0 : BitVec 12) ++ s.jd.msy ++ s.jd.msx := rfl
  have e3 : regRead s 0x10 = (0 : BitVec 26) ++ s.jd.qtid2 ++ s.jd.qtid1 ++ s.jd.qtid0 := rfl
  rw [e1, e2, e3]
  simp only [field_append_high, field_append_low, field_whole, Nat.reduceLeDiff, Nat.reduceAdd, Nat.reduceSub, true_and]
  exact ⟨rfl, rfl⟩

/-- JD_POS, the source registers and JD_ARENA (R24 to R26). -/
theorem jdProgress_fields :
    (regRead s 0x14).toNat / 2 ^ 0 % 2 ^ 16 = s.jd.posX.toNat ∧ (regRead s 0x14).toNat / 2 ^ 16 % 2 ^ 16 = s.jd.posY.toNat ∧
    (regRead s 0x18).toNat / 2 ^ 0 % 2 ^ 32 = s.jd.srcLen.toNat ∧
    (regRead s 0x1C).toNat / 2 ^ 0 % 2 ^ 32 = s.jd.srcPos.toNat ∧
    (regRead s 0x20).toNat / 2 ^ 0 % 2 ^ 16 = s.jd.used.toNat ∧
    (regRead s 0x20).toNat / 2 ^ 16 % 2 ^ 16 = (s.params.poolSize - s.jd.used).toNat := by
  have e1 : regRead s 0x14 = s.jd.posY ++ s.jd.posX := rfl
  have e2 : regRead s 0x20 = (s.params.poolSize - s.jd.used) ++ s.jd.used := rfl
  refine ⟨?_, ?_, field_setWidth s.jd.srcLen (by decide), field_setWidth s.jd.srcPos (by decide), ?_, ?_⟩
  · rw [e1, field_append_low _ _ (by decide), field_whole]
  · rw [e1, field_append_high _ _ (by decide), field_whole]
  · rw [e2, field_append_low _ _ (by decide), field_whole]
  · rw [e2, field_append_high _ _ (by decide), field_whole]

/-- JD_TBLVALID: HVALID by table id and class, QVALID by number (R23). -/
theorem tblValid_fields :
    (∀ id cls : Bool, (regRead s 0x24).getLsbD (2 * id.toNat + cls.toNat) = (s.jd.huff.get id cls).isSome) ∧
    (∀ i : BitVec 2, (regRead s 0x24).getLsbD (4 + i.toNat) = (s.jd.quant.get i).isSome) ∧
    (regRead s 0x24).toNat / 2 ^ 8 % 2 ^ 24 = 0 := by
  have e : regRead s 0x24 = tblValidWord s.jd := rfl
  rw [e, tblValidWord]
  refine ⟨fun id cls => ?_, fun i => ?_, ?_⟩
  · cases id <;> cases cls <;>
      simp only [Bool.toNat_false, Bool.toNat_true, Nat.reduceMul, Nat.reduceAdd, bit_zero_append, bit_succ_append] <;> rfl
  · have hi : i = 0 ∨ i = 1 ∨ i = 2 ∨ i = 3 := by
      revert i
      decide
    rcases hi with rfl | rfl | rfl | rfl <;>
      simp only [BitVec.reduceToNat, Nat.reduceAdd, bit_zero_append, bit_succ_append] <;> rfl
  · simp only [field_append_high, Nat.reduceLeDiff, Nat.reduceSub]
    rfl

/-- RX_STATUS, the RX lengths, RX_TAKE and the RX counters (R36, R37). -/
theorem rx_fields :
    (regRead s 0x44).getLsbD 0 = s.rx.hdrValid ∧ (regRead s 0x44).getLsbD 1 = s.rx.frameReady ∧
    (regRead s 0x44).getLsbD 2 = s.rx.fillIdx ∧ (regRead s 0x44).getLsbD 3 = s.rx.readyIdx ∧
    (regRead s 0x44).getLsbD 4 = s.rx.overrun ∧ (regRead s 0x44).getLsbD 5 = s.rx.bounds ∧
    (regRead s 0x44).toNat / 2 ^ 6 % 2 ^ 26 = 0 ∧
    (regRead s 0x48).toNat / 2 ^ 0 % 2 ^ 32 = s.rx.hdrLen.toNat ∧
    (regRead s 0x4C).toNat / 2 ^ 0 % 2 ^ 32 = s.rx.frameLen0.toNat ∧
    (regRead s 0x50).toNat / 2 ^ 0 % 2 ^ 32 = s.rx.frameLen1.toNat ∧
    (regRead s 0x54).getLsbD 0 = s.rx.takeIdx ∧ (regRead s 0x54).getLsbD 1 = s.rx.takeValid ∧
    (regRead s 0x54).toNat / 2 ^ 2 % 2 ^ 6 = 0 ∧ (regRead s 0x54).toNat / 2 ^ 8 % 2 ^ 24 = s.rx.takeLen.toNat ∧
    (regRead s 0x58).toNat / 2 ^ 0 % 2 ^ 32 = s.rx.dropCnt.toNat ∧
    (regRead s 0x5C).toNat / 2 ^ 0 % 2 ^ 32 = s.rx.ackPend.toNat := by
  have e1 : regRead s 0x44 = rxStatusWord s.rx := rfl
  have e2 : regRead s 0x54 = takeWord s.rx := rfl
  have e3 : ((regRead s 0x48).toNat / 2 ^ 0 % 2 ^ 32 = s.rx.hdrLen.toNat ∧
      (regRead s 0x4C).toNat / 2 ^ 0 % 2 ^ 32 = s.rx.frameLen0.toNat ∧
      (regRead s 0x50).toNat / 2 ^ 0 % 2 ^ 32 = s.rx.frameLen1.toNat) :=
    ⟨field_setWidth s.rx.hdrLen (by decide), field_setWidth s.rx.frameLen0 (by decide),
      field_setWidth s.rx.frameLen1 (by decide)⟩
  have e4 : (regRead s 0x58).toNat / 2 ^ 0 % 2 ^ 32 = s.rx.dropCnt.toNat := field_whole s.rx.dropCnt
  have e5 : (regRead s 0x5C).toNat / 2 ^ 0 % 2 ^ 32 = s.rx.ackPend.toNat := field_setWidth s.rx.ackPend (by decide)
  rw [e1, e2, rxStatusWord, takeWord]
  simp only [e3, e4, e5, bit_zero_append, bit_succ_append, field_append_high, field_append_low, field_whole,
    Nat.reduceLeDiff, Nat.reduceAdd, Nat.reduceSub, true_and, and_true]
  exact ⟨rfl, rfl⟩

/-- The TXC registers (R40) and the interrupt registers (R42). -/
theorem txcIntr_fields :
    (regRead s 0x84).getLsbD 0 = s.txc.firstAck ∧ (regRead s 0x84).getLsbD 1 = s.txc.captureWait ∧
    (regRead s 0x84).getLsbD 2 = s.txc.fragBusy ∧ (regRead s 0x84).getLsbD 3 = s.txp.busy ∧
    (regRead s 0x84).toNat / 2 ^ 4 % 2 ^ 28 = 0 ∧ (regRead s 0x88).toNat / 2 ^ 0 % 2 ^ 32 = s.txc.credit.toNat ∧
    (regRead s 0x8C).toNat / 2 ^ 0 % 2 ^ 32 = s.txc.wdtCnt.toNat ∧
    (regRead s 0x90).toNat / 2 ^ 0 % 2 ^ 32 = s.txc.fragLen.toNat ∧
    (regRead s 0xC0).toNat / 2 ^ 0 % 2 ^ 32 = s.intr.status.toNat ∧
    (regRead s 0xC4).toNat / 2 ^ 0 % 2 ^ 32 = s.intr.enable.toNat := by
  have e : regRead s 0x84 = txcStatusWord s.txc s.txp := rfl
  rw [e, txcStatusWord]
  refine ⟨?_, ?_, ?_, ?_, ?_, field_setWidth s.txc.credit (by decide), field_whole s.txc.wdtCnt,
    field_setWidth s.txc.fragLen (by decide), field_setWidth s.intr.status (by decide),
    field_setWidth s.intr.enable (by decide)⟩
  · exact bit_zero_append _ _
  · simp only [bit_zero_append, bit_succ_append]
  · simp only [bit_zero_append, bit_succ_append]
  · simp only [bit_zero_append, bit_succ_append]
  · simp only [field_append_high, Nat.reduceLeDiff, Nat.reduceSub]
    rfl

end

end Sys2Proof.Machine

namespace Sys2Proof.Proofs

open Sys2Proof.Machine

/-- Settles O54: JD's turn is taken off the schedule, and what JD then does touches its own unit, JD_DONE and one tile. -/
theorem decoderTouchesOnlyItself : Obligations.DecoderTouchesOnlyItself := by
  intro s t hturn h
  have ht := step_jdTouches hturn h
  rw [s.turn_schedule] at ht
  refine ⟨?_, ht.status, ht.out⟩
  conv_lhs => rw [ht.frame]
  rw [ht.frame]

/-- Settles O5: the environment's input is fetched and its bytes decoded. -/
theorem stepRunsDeliveredInstruction : Obligations.StepRunsDeliveredInstruction := by
  intro s u input rest i hturn hin
  have hfetch := fetch_env hturn hin
  constructor
  · rintro d rfl hd
    refine step_of_run (hfetch.trans ?_)
    unfold inputFetch radioFetch
    dsimp only
    rw [hd]
  · rintro off w rfl hok hd
    refine step_of_run (hfetch.trans ?_)
    unfold inputFetch writeFetch
    dsimp only
    rw [if_pos hok, hd]

/-- Settles O15: an accepted command is initialised in the step of the host's write. -/
theorem decoderCommandsStart : Obligations.DecoderCommandsStart := by
  intro b s hbusy
  refine ⟨?_, fun hp => ?_, fun hp => ?_⟩
  · exact jdCommand_accepted hbusy
  · refine (jdCommand_accepted hbusy).trans (congrArg _ ?_)
    exact if_pos hp
  · refine (jdCommand_accepted hbusy).trans (congrArg _ ?_)
    exact if_neg (ne_true_of_eq_false hp)

/-- Settles O16: TAKE hands over or clears RX_TAKE, and CLR_STICKY acts on what TAKE has left. -/
theorem takeAndClearSticky : Obligations.TakeAndClearSticky := by
  intro s taken cleared
  have htake : take s = taken := by
    unfold take
    split
    · exact (if_pos ‹_›).symm
    · exact (if_neg ‹_›).symm
  have hclr : ∀ u, clrSticky u = cleared u := fun _ => rfl
  refine ⟨congrArg Host.Outcome.next htake, ?_, rfl, fun w => ⟨rfl, regWrite_ignored w s (by decide) (by decide)⟩⟩
  rw [← htake, ← hclr]
  rfl

/-- Settles O51: the access is refused, read, or written as R43 says, after the check of its width and place. -/
theorem registerAccess : Obligations.RegisterAccess := by
  intro s u off n w rest hturn v
  refine ⟨fun hin => ⟨fun hok => ?_, fun hok => ?_⟩, fun hin => ?_, regRead_unmapped s⟩
  · exact step_of_moved ((fetch_env hturn hin).trans (readFetch_moved v hok))
  · exact step_of_refused ((fetch_env hturn hin).trans (readFetch_refused v hok))
  · have hfetch : fetch s = writeFetch off n w v := fetch_env hturn hin
    have hplain : n = 4 → off % 4 = 0 ∧ off < 256 → decodeRegister off w = none → step s = .next (regWrite off w v) := by
      rintro rfl hok hd
      exact step_of_moved (hfetch.trans (writeFetch_plain v hok hd))
    refine ⟨fun hok => ?_, fun hn hoff => ?_, fun hn hoff => ?_, fun hn hoff h0 h1 => ?_, fun hn hoff h0 => ?_,
      fun hn hmod hlt hoff => ?_⟩
    · exact step_of_refused (hfetch.trans (writeFetch_refused w v hok))
    · subst hoff
      exact hplain hn (by decide) rfl
    · subst hoff
      exact hplain hn (by decide) rfl
    · subst hoff
      exact hplain hn (by decide) (decodeRegister_rxCtrl_none h0 h1)
    · have hd : decodeRegister off w = none := decodeRegister_txc_none hoff h0
      rcases hoff with rfl | rfl <;> exact hplain hn (by decide) hd
    · have hsub : [0x00, 0x40, 0x80, 0x94, 0xC0] ⊆ [0x00, 0x40, 0x80, 0x90, 0x94, 0xC0, 0xC4] := by decide
      have hd : decodeRegister off w = none := decodeRegister_none w fun h => hoff (hsub h)
      have hw : regWrite off w v = v :=
        regWrite_ignored w v (fun h => hoff (by simp [h])) fun h => hoff (by simp [h])
      rw [hplain hn ⟨hmod, hlt⟩ hd, hw]

/-- Settles O52: the result codes are computed, and each register's fields are read off its concatenation. -/
theorem registerFields : Obligations.RegisterFields := by
  refine ⟨rfl, fun s => ?_⟩
  have h := And.intro (jdStatus_fields s) <| And.intro (jdConfig_fields s) <| And.intro (jdProgress_fields s) <|
    And.intro (tblValid_fields s) <| And.intro (rx_fields s) (txcIntr_fields s)
  simp only [and_assoc] at h
  exact h

end Sys2Proof.Proofs
end

section
/-! PROOFS of the statements about the byte spaces (R60, R61, R69, R73): what a write of a buffer and a read of JD do, that
every step keeps the memories in canonical form, and what a reset input does (R330, R331). -/

namespace Sys2Proof.Machine

/-! The bytes of the buffers and of TXSRC. -/

/-- The RX write of one byte changes that byte and no other (R61). -/
theorem rxWrite_rxByte (b : Bool) (a : Nat) (v : Byte) (s : State) (h : (s.rxbuf b).wf) (c : Bool) (x : Nat) :
    (rxWrite b a v s).rxByte c x = if c = b ∧ x = a then v else s.rxByte c x := by
  have one : rxWrite b a v s = rxWriteBytes b a [v] s := rfl
  rw [one, rxWriteBytes_rxByte b a [v] s h]
  by_cases hx : x = a
  · subst hx
    simp
  · have : ¬ (a ≤ x ∧ x < a + [v].length) := by
      rw [List.length_singleton]
      omega
    rw [if_neg fun h => this h.2, if_neg fun h => hx h.2]

/-- The RX write of one byte keeps the overwritten value for a JD command that runs on the buffer (R69). -/
theorem rxWrite_oldValues (b : Bool) (a : Nat) (v : Byte) (s : State) (x : Nat) :
    (rxWrite b a v s).oldValues x =
      if s.jd.busy = true ∧ s.jd.srcIdx = b ∧ x = a then s.rxByte b a :: s.oldValues x else s.oldValues x := by
  rw [rxWrite_eq]
  unfold State.oldValues
  rw [State.setRxbuf_raced, State.setRaced_raced]
  by_cases hrun : s.jd.busy = true ∧ s.jd.srcIdx = b
  · rw [if_pos hrun]
    by_cases hx : x = a
    · simp [hrun, hx]
    · simp [hx, Ne.symm hx]
  · rw [if_neg hrun, if_neg fun h => hrun ⟨h.1, h.2.1⟩]

/-- A JD read gives the stored byte or a kept one (R69). -/
theorem jdRead_mem (a : Nat) (s : State) : (jdRead a s).1 ∈ s.rxByte s.jd.srcIdx a :: s.oldValues a := by
  unfold jdRead
  dsimp only
  split
  · exact List.mem_cons_self
  · rename_i olds hne
    have hlt : Config.raceDraw s.draws % ((s.oldValues a).length + 1) < (s.rxByte s.jd.srcIdx a :: s.oldValues a).length :=
      Nat.mod_lt _ (Nat.succ_pos _)
    rw [List.getD_eq_getElem _ _ hlt]
    exact List.getElem_mem hlt

/-- Without a kept value a JD read gives the stored byte and makes no choice (R69). -/
theorem jdRead_of_not_raced {a : Nat} {s : State} (h : s.oldValues a = []) :
    jdRead a s = (s.rxByte s.jd.srcIdx a, s) := by
  unfold jdRead
  rw [h]

/-- The camera's write changes the bytes written and no other (R73). -/
theorem cameraWrite_txsrcByte (a : Nat) (bs : List Byte) (s : State) (h : s.txsrc.wf) (x : Nat) :
    (cameraWrite a bs s).txsrcByte x =
      if a ≤ x ∧ x < a + bs.length then bs.getD (x - a) 0 else s.txsrcByte x := by
  induction bs generalizing a s with
  | nil =>
    rw [if_neg (by rw [List.length_nil]; omega)]
    rfl
  | cons v vs ih =>
    have hhead : (s.setTxsrc (s.txsrc.write a v)).txsrcByte x = if x = a then v else s.txsrcByte x := by
      unfold State.txsrcByte
      rw [State.setTxsrc_txsrc, Memory.read_write _ _ _ _ h, apply_ite (Option.getD · (Config.txsrcDraw x))]
      rfl
    rw [cameraWrite, ih (a + 1) _ (Memory.write_wf _ _ _ h), hhead, List.length_cons]
    rcases Nat.lt_trichotomy x a with hlt | rfl | hgt
    · rw [if_neg (by omega), if_neg (by omega), if_neg (by omega)]
    · rw [if_neg (by omega), if_pos rfl, if_pos (by omega), Nat.sub_self, List.getD_cons_zero]
    · by_cases hin : x < a + 1 + vs.length
      · rw [if_pos ⟨hgt, hin⟩, if_pos (by omega), show x - a = x - (a + 1) + 1 by omega, List.getD_cons_succ]
      · rw [if_neg fun h => hin h.2, if_neg (by omega), if_neg (by omega)]

/-! Reset (R330, R331). -/

theorem hwReset_eq (s : State) (rest : List Input) : hwReset { s with inputs := rest } =
    { State.resetWith s.params (s.epoch + 1) with
      txsrc := s.txsrc, draws := s.draws, inputs := rest, schedule := s.schedule, out := s.out } := rfl

/-- A txdone with no send in progress is ignored (R261, R331). -/
theorem txDone_of_not_busy {s : State} (h : s.txp.busy = false) : txDone s = s :=
  if_neg (ne_true_of_eq_false h)

/-- A tile answer with no tile pending is ignored (R331). -/
theorem answerTile_of_no_tile (accept : Bool) {s : State} (h : s.jd.mode ≠ .tile) : answerTile accept s = s :=
  if_neg h

/-! A predicate that every instruction keeps and that holds of what is found to do holds after the step. -/

/-- A predicate holds of the state in which an instruction has been found, or to which a unit has moved. -/
def Fetched.Holds (P : State → Prop) (x : Fetched) : Prop :=
  match x with
  | .run _ t => P t
  | .moved t => P t
  | .fault _ => True
  | .refused _ => True

theorem step_holds {P : State → Prop} {s t : State} (hf : (fetch s).Holds P)
    (he : ∀ {i u v}, P u → exec i u = .next v → P v) (h : step s = .next t) : P t := by
  cases hx : fetch s with
  | run i u =>
    rw [hx] at hf
    exact he hf ((step_of_run hx).symm.trans h)
  | moved u =>
    rw [hx] at hf
    rw [step_of_moved hx] at h
    cases h
    exact hf
  | fault f => rw [step_of_fault hx] at h; cases h
  | refused r => rw [step_of_refused hx] at h; cases h

/-! The canonical form of the memories. Only RX, the camera and a reset write a memory; every other move leaves the three
memories as they are, so that `MemInv` of the state before is `MemInv` of the state after. -/

section
variable {s t : State}

theorem MemInv.jdOnly (h : MemInv s) (ht : JdOnly s t) : MemInv t := by
  rw [ht.frame]
  exact h

theorem MemInv.jdMove (h : MemInv s) (ht : JdMove s t) : MemInv t := by
  cases ht with
  | goesOn ht => exact h.jdOnly ht
  | ends r ht =>
    have hu := h.jdOnly ht
    exact hu
  | putsOut => exact h

theorem MemInv.rxbuf (h : MemInv s) (b : Bool) : (s.rxbuf b).wf := by
  obtain ⟨h0, h1, -⟩ := h
  cases b
  · exact h0
  · exact h1

/-- The RX write keeps the canonical form of the buffer it writes, and leaves the other memories (R236, R240). -/
theorem MemInv.rxWriteBytes (h : MemInv s) (b : Bool) (a : Nat) (vs : List Byte) : MemInv (rxWriteBytes b a vs s) := by
  have hb := rxWriteBytes_wf b a vs s (h.rxbuf b)
  obtain ⟨h0, h1, hx⟩ := h
  rw [rxWriteBytes_frame]
  cases b
  · exact ⟨hb, h1, hx⟩
  · exact ⟨h0, hb, hx⟩

theorem MemInv.cameraWrite (h : MemInv s) (a : Nat) (vs : List Byte) : MemInv (cameraWrite a vs s) := by
  obtain ⟨h0, h1, hx⟩ := h
  rw [cameraWrite_frame]
  exact ⟨h0, h1, cameraWrite_wf a vs s hx⟩

/-- A reset empties the buffers and leaves TXSRC (R330; assumption log 15). -/
theorem MemInv.hwReset (h : MemInv s) : MemInv (hwReset s) := by
  obtain ⟨-, -, hx⟩ := h
  exact ⟨List.Pairwise.nil, List.Pairwise.nil, hx⟩

/-! The packets (R231 to R242). -/

theorem MemInv.completeHeader (h : MemInv s) (off size : Nat) : MemInv (completeHeader off size s) :=
  h.rxWriteBytes _ _ _

theorem MemInv.completeFrame (h : MemInv s) (off size : Nat) : MemInv (completeFrame off size s) := by
  unfold Machine.completeFrame
  dsimp only
  split <;> exact h

theorem MemInv.placeFragment (h : MemInv s) (base : Nat) {complete : Nat → Nat → State → State}
    (hc : ∀ off size u, MemInv u → MemInv (complete off size u)) (p : Packet) :
    MemInv (placeFragment base complete p s) := by
  unfold Machine.placeFragment
  split
  · exact h
  · dsimp only
    split_ifs
    · exact h
    · exact h
    · exact h
    · exact hc _ _ _ (h.rxWriteBytes _ _ _)
    · exact h.rxWriteBytes _ _ _

theorem MemInv.passThrough (h : MemInv s) (type : Byte) (p : Packet) : MemInv (passThrough type p s) := by
  unfold Machine.passThrough
  split <;> exact h

/-! The credit, the watchdog and the transmit port (R260 to R266). -/

theorem MemInv.release (h : MemInv s) : MemInv (release s) := by
  rw [release_frame]
  exact h

theorem MemInv.tick (h : MemInv s) : MemInv (tick s) := by
  unfold Machine.tick
  dsimp only
  split
  · exact MemInv.release h
  · exact h

theorem MemInv.txDone (h : MemInv s) : MemInv (txDone s) := by
  unfold Machine.txDone
  split <;> exact h

theorem MemInv.sendFragment (h : MemInv s) : MemInv (sendFragment s) := by
  unfold Machine.sendFragment
  dsimp only
  split <;> exact h

theorem MemInv.txpStep (h : MemInv s) : MemInv (txpStep s) := by
  unfold Machine.txpStep
  split_ifs
  · exact h.sendFragment
  · exact h
  · exact MemInv.sendFragment (s := s.draw) h
  · exact h

/-! The host's commands and plain writes, and the tile answer (R21, R35, R40, R210). -/

theorem MemInv.jdCommand {run : State → State} (h : MemInv s) (hrun : ∀ u, MemInv u → MemInv (run u))
    (ht : jdCommand run s = .next t) : MemInv t := by
  unfold Machine.jdCommand at ht
  split at ht
  · cases ht; exact h
  · cases ht; exact hrun _ h

theorem MemInv.decompStart (h : MemInv s) : MemInv (decompStart s) := by
  unfold Machine.decompStart
  split <;> exact h

theorem MemInv.take (h : MemInv s) : MemInv (take s) := by
  unfold Machine.take
  split <;> exact h

theorem MemInv.regWrite (h : MemInv s) (off : Nat) (w : Word) : MemInv (regWrite off w s) := by
  unfold Machine.regWrite
  split_ifs <;> exact h

theorem MemInv.answerTile (h : MemInv s) (accept : Bool) : MemInv (answerTile accept s) := by
  unfold Machine.answerTile
  split_ifs <;> exact h

/-- Of the instructions only the two fragment packets write a memory. -/
theorem MemInv.exec {i : Instr} (h : MemInv s) (ht : exec i s = .next t) : MemInv t := by
  cases i with
  | pktInitialHeaderData p => cases ht; exact h.placeFragment _ (fun off size _ hu => hu.completeHeader off size) p
  | pktFrameData p => cases ht; exact h.placeFragment _ (fun off size _ hu => hu.completeFrame off size) p
  | pktAck p =>
    cases ht
    split
    · exact h
    · exact MemInv.release h
  | pktNak p | pktTelemetry p | pktPing p | pktSwitchChannel p | pktTxPowerUpdate p | pktEnableLed p =>
    cases ht; exact h.passThrough _ p
  | jdPrepare buf => exact h.jdCommand (run := prepareInit buf) (fun _ hu => hu) ht
  | jdDecomp buf => exact h.jdCommand (fun _ hu => hu.decompStart) ht
  | rxTake clr =>
    cases ht
    split
    · exact h.take
    · exact h.take
  | txcCaptureReq =>
    change execTxcCaptureReq s = .next t at ht
    unfold execTxcCaptureReq at ht
    split_ifs at ht <;> cases ht <;> exact h
  | txcFragStart frame =>
    change execTxcFragStart frame s = .next t at ht
    unfold execTxcFragStart at ht
    dsimp only at ht
    split_ifs at ht <;> cases ht <;> exact h
  | pktUnknown | jdNop | jdReserved | rxClrSticky | intW1c => cases ht; exact h
  | _ => exact h.jdMove (exec_jdMove rfl ht)

/-! What is found to do. -/

theorem MemInv.jdFetch (h : MemInv s) : (jdFetch s).Holds MemInv := by
  have hj := jdFetch_staysInJd s
  cases hx : Machine.jdFetch s with
  | run i u => rw [hx] at hj; exact h.jdOnly hj
  | moved u => rw [hx] at hj; exact h.jdMove hj
  | fault f => trivial
  | refused r => trivial

theorem MemInv.radioFetch (h : MemInv s) (d : List Byte) : (radioFetch d s).Holds MemInv := by
  unfold Machine.radioFetch
  split <;> exact h

theorem MemInv.writeFetch (h : MemInv s) (off n : Nat) (w : Word) : (writeFetch off n w s).Holds MemInv := by
  unfold Machine.writeFetch
  split
  · split
    · exact h
    · exact h.regWrite off w
  · trivial

theorem MemInv.inputFetch (h : MemInv s) (i : Input) : (inputFetch i s).Holds MemInv := by
  cases i with
  | radio d => exact h.radioFetch d
  | regWrite off n w => exact h.writeFetch off n w
  | regRead off n =>
    unfold Machine.inputFetch
    dsimp only
    split
    · exact h
    · trivial
  | tileAnswer accept => exact h.answerTile accept
  | txdone => exact h.txDone
  | tick => exact h.tick
  | camera a bytes => exact h.cameraWrite a bytes
  | reset => exact h.hwReset

theorem MemInv.turnFetch (h : MemInv s) (turn : Turn) : (turnFetch turn s).Holds MemInv := by
  cases turn with
  | env =>
    unfold Machine.turnFetch envFetch
    dsimp only
    split
    · exact h
    · rename_i input rest _
      exact MemInv.inputFetch (s := { s with inputs := rest }) h input
  | jd => exact h.jdFetch
  | txp =>
    unfold Machine.turnFetch txpFetch
    dsimp only
    split
    · exact h.txpStep
    · exact h

theorem MemInv.fetch (h : MemInv s) : (fetch s).Holds MemInv := by
  refine MemInv.turnFetch ?_ _
  rw [s.turn_schedule]
  exact h

end

end Sys2Proof.Machine

namespace Sys2Proof.Proofs

open Sys2Proof.Machine

/-- Settles O53: each clause is the byte rule of its write or read. -/
theorem bufferBytes : Obligations.BufferBytes := by
  refine ⟨fun s b c a x v hwf => ?_, fun s a => ?_, fun s a x bs hwf => ?_⟩
  · exact ⟨rxWrite_rxByte b a v s hwf c x, rxWrite_oldValues b a v s x⟩
  · exact ⟨jdRead_mem a s, jdRead_of_not_raced⟩
  · exact ⟨cameraWrite_txsrcByte a bs s hwf x, cameraWrite_frame a bs s⟩

/-- Settles O56: what a step finds to do has the memories in canonical form, and every instruction keeps it. -/
theorem memoryStaysCanonical : Obligations.MemoryStaysCanonical :=
  fun _ _ hs h => step_holds hs.fetch (fun hu hv => hu.exec hv) h

/-- Settles O50: the reset is fetched as the environment's input, and in a reset state nothing is being sent and no tile is
pending. -/
theorem resetInput : Obligations.ResetInput := by
  refine ⟨fun s u rest hturn hin => ?_, fun p epoch accept => ⟨?_, ?_⟩⟩
  · have hfetch : fetch s = .moved (hwReset { u with inputs := rest }) := fetch_env hturn hin
    rw [step_of_moved hfetch, hwReset_eq]
  · exact txDone_of_not_busy rfl
  · exact answerTile_of_no_tile accept nofun

end Sys2Proof.Proofs
end

section
/-! PROOFS of the statements about the table segments (R127 to R129): a loop over any legal tables, what stands after it, and
the first table that fails. -/

namespace Sys2Proof.Machine

/-! The loop over the tables of a segment. -/

/-- Two amounts counted in USED one after the other. -/
theorem used_add (u : BitVec 16) (m n : Nat) :
    BitVec.ofNat 16 ((BitVec.ofNat 16 (u.toNat + m)).toNat + n) = BitVec.ofNat 16 (u.toNat + (m + n)) := by
  simp only [BitVec.ofNat_add, BitVec.ofNat_toNat, BitVec.setWidth_eq, BitVec.add_assoc]

section
variable {τ : Type} {table : List Byte → State → Res (List Byte)} {bytes : τ → List Byte} {cost : τ → Nat}
  {place : τ → Jd → Jd}

/-- The rule of a segment places table `t`, written as `bytes t`, in the JD unit and takes `cost t` arena bytes for it, wherever
the arena can hold it (R62). -/
structure Places (table : List Byte → State → Res (List Byte)) (bytes : τ → List Byte) (cost : τ → Nat)
    (place : τ → Jd → Jd) (t : τ) : Prop where
  nonempty : bytes t ≠ []
  used : ∀ j, (place t j).used = BitVec.ofNat 16 (j.used.toNat + cost t)
  placed : ∀ (rest : List Byte) (s : State), s.jd.used.toNat + cost t ≤ s.params.poolSize.toNat →
    table (bytes t ++ rest) s = .ok rest (s.setJd (place t s.jd))

/-- The JD unit with some tables placed in it, in their order. -/
def placeAll (place : τ → Jd → Jd) (ts : List τ) (j : Jd) : Jd := ts.foldl (fun j t => place t j) j

/-- The state with some tables placed in the JD unit. -/
def State.placed (s : State) (place : τ → Jd → Jd) (ts : List τ) : State := s.setJd (placeAll place ts s.jd)

theorem placeAll_used {ts : List τ} (ht : ∀ t ∈ ts, Places table bytes cost place t) (j : Jd) :
    (placeAll place ts j).used = BitVec.ofNat 16 (j.used.toNat + (ts.map cost).sum) := by
  induction ts generalizing j with
  | nil => simp [placeAll]
  | cons t ts ih =>
    refine (ih (fun u hu => ht u (List.mem_cons_of_mem _ hu)) (place t j)).trans ?_
    rw [(ht t List.mem_cons_self).used, used_add, List.map_cons, List.sum_cons]

theorem State.placed_used {ts : List τ} (ht : ∀ t ∈ ts, Places table bytes cost place t) {s : State}
    (hfit : s.jd.used.toNat + (ts.map cost).sum ≤ s.params.poolSize.toNat) :
    (s.placed place ts).jd.used.toNat = s.jd.used.toNat + (ts.map cost).sum := by
  have hlt := Nat.lt_of_le_of_lt hfit s.params.poolSize.isLt
  rw [State.placed, State.setJd_jd, placeAll_used ht, BitVec.toNat_ofNat, Nat.mod_eq_of_lt hlt]

/-- The loop places the tables it finds first and goes on behind them. -/
theorem tableLoop_placed {ts : List τ} (ht : ∀ t ∈ ts, Places table bytes cost place t) (n : Nat) (rest : List Byte)
    (s : State) (hfit : s.jd.used.toNat + (ts.map cost).sum ≤ s.params.poolSize.toNat) :
    tableLoop table (ts.length + n) (ts.flatMap bytes ++ rest) s = tableLoop table n rest (s.placed place ts) := by
  induction ts generalizing s with
  | nil => rw [List.length_nil, Nat.zero_add]; rfl
  | cons t ts ih =>
    obtain ⟨hne, hused, hplaced⟩ := ht t List.mem_cons_self
    rw [List.map_cons, List.sum_cons] at hfit
    have hu : (place t s.jd).used.toNat = s.jd.used.toNat + cost t := by
      have := s.params.poolSize.isLt
      rw [hused, BitVec.toNat_ofNat, Nat.mod_eq_of_lt (by omega)]
    have hstep := hplaced (ts.flatMap bytes ++ rest) s (by omega)
    have hloop := ih (fun u hu => ht u (List.mem_cons_of_mem _ hu)) (s.setJd (place t s.jd))
      (by rw [State.setJd_jd, State.setJd_params]; omega)
    rw [List.length_cons, Nat.add_right_comm, List.flatMap_cons, List.append_assoc,
      tableLoop_cons _ _ _ (List.append_ne_nil_of_left_ne_nil hne _), hstep, Res.bind_ok, hloop]
    rfl

/-- A table has at least one byte, so the length of a segment bounds the rounds of the loop. -/
theorem length_le_flatMap_length {ts : List τ} (ht : ∀ t ∈ ts, Places table bytes cost place t) :
    ts.length ≤ (ts.flatMap bytes).length := by
  rw [List.length_flatMap, ← List.length_map (as := ts) fun t => (bytes t).length]
  refine List.length_le_sum_of_one_le _ fun n hn => ?_
  obtain ⟨t, hmem, rfl⟩ := List.mem_map.mp hn
  exact List.length_pos_iff.mpr (ht t hmem).nonempty

/-- On a segment of whole tables the loop places each of them. -/
theorem tableLoop_whole {ts : List τ} (ht : ∀ t ∈ ts, Places table bytes cost place t) (s : State)
    (hfit : s.jd.used.toNat + (ts.map cost).sum ≤ s.params.poolSize.toNat) :
    tableLoop table (ts.flatMap bytes).length (ts.flatMap bytes) s = .ok () (s.placed place ts) := by
  obtain ⟨n, hn⟩ := Nat.exists_eq_add_of_le (length_le_flatMap_length ht)
  have h := tableLoop_placed ht n [] s hfit
  rw [List.append_nil] at h
  rw [hn, h]
  cases n <;> rfl

/-- Where the bytes behind some whole tables raise, the loop places the tables and ends the command. -/
theorem tableLoop_ends {ts : List τ} (ht : ∀ t ∈ ts, Places table bytes cost place t) {seg : List Byte} (hne : seg ≠ [])
    {s : State} (hfit : s.jd.used.toNat + (ts.map cost).sum ≤ s.params.poolSize.toNat) {r : ResultCode} {u : State}
    (hends : table seg (s.placed place ts) = .ends r u) :
    tableLoop table (ts.flatMap bytes ++ seg).length (ts.flatMap bytes ++ seg) s = .ends r u := by
  have hle : ts.length + 1 ≤ (ts.flatMap bytes ++ seg).length := by
    rw [List.length_append]
    exact Nat.add_le_add (length_le_flatMap_length ht) (List.length_pos_iff.mpr hne)
  obtain ⟨n, hn⟩ := Nat.exists_eq_add_of_le hle
  rw [hn, Nat.add_assoc, tableLoop_placed ht _ _ _ hfit, Nat.add_comm, tableLoop_cons _ _ _ hne, hends, Res.bind_ends]

end

/-! The tables of DHT and DQT in the JD unit. -/

/-- A Huffman table placed: its arena bytes counted, and `H[id][cls]` set (R62, R127). -/
def dhtPlace (t : (Bool × Bool) × List Byte × List Byte) (j : Jd) : Jd :=
  { j with
    used := BitVec.ofNat 16 (j.used.toNat + huffArena t.2.1)
    huff := j.huff.set t.1.1 t.1.2 ⟨t.2.1, canonicalCodes t.2.1, t.2.2⟩ }

/-- A quantization table placed: its 256 arena bytes counted, and `Q[i]` set (R62, R129). -/
def dqtPlace (t : BitVec 2 × List Byte) (j : Jd) : Jd :=
  { j with
    used := BitVec.ofNat 16 (j.used.toNat + 256)
    quant := j.quant.set t.1 (quantTable t.2) }

theorem dht_places {t : (Bool × Bool) × List Byte × List Byte} (ht : DhtLegal t) :
    Places dhtTable dhtBytes (fun t => huffArena t.2.1) dhtPlace t where
  nonempty := List.cons_ne_nil _ _
  used _ := rfl
  placed rest _ hfit := dhtTable_legal ht rest hfit

/-- The bytes of a table in a DQT segment: precision 0 and the id in the first byte, then the 64 values (R91, R129). -/
def dqtBytes (t : BitVec 2 × List Byte) : List Byte := t.1.setWidth 8 :: t.2

theorem dqt_places {t : BitVec 2 × List Byte} (ht : t.2.length = 64) :
    Places dqtTable dqtBytes (fun _ => 256) dqtPlace t where
  nonempty := List.cons_ne_nil _ _
  used _ := rfl
  placed rest _ hfit := dqtTable_legal ht rest hfit

theorem placeAll_dht (ts : List ((Bool × Bool) × List Byte × List Byte)) (j : Jd) :
    placeAll dhtPlace ts j = { j with
      used := BitVec.ofNat 16 (j.used.toNat + (ts.map fun t => huffArena t.2.1).sum)
      huff := ts.foldl (fun h t => h.set t.1.1 t.1.2 ⟨t.2.1, canonicalCodes t.2.1, t.2.2⟩) j.huff } := by
  induction ts generalizing j with
  | nil => simp [placeAll]
  | cons t ts ih =>
    refine (ih (dhtPlace t j)).trans ?_
    simp only [dhtPlace, used_add, List.map_cons, List.sum_cons, List.foldl_cons]

theorem placeAll_dqt (ts : List (BitVec 2 × List Byte)) (j : Jd) :
    placeAll dqtPlace ts j = { j with
      used := BitVec.ofNat 16 (j.used.toNat + 256 * ts.length)
      quant := ts.foldl (fun q t => q.set t.1 (quantTable t.2)) j.quant } := by
  induction ts generalizing j with
  | nil => simp [placeAll]
  | cons t ts ih =>
    refine (ih (dqtPlace t j)).trans ?_
    simp only [dqtPlace, used_add, List.length_cons, List.foldl_cons, Nat.mul_succ, Nat.add_comm 256]

/-- The arena bytes of some quantization tables (R129). -/
theorem dqt_cost (ts : List (BitVec 2 × List Byte)) : (ts.map fun _ => 256).sum = 256 * ts.length := by
  rw [List.map_const', List.sum_replicate, smul_eq_mul, Nat.mul_comm]

/-! `ZIG` names every place once (R98). -/

theorem zig_idxOf_zigAt : ∀ k : Fin 64, zigAt k.val < 64 ∧ zig.idxOf (zigAt k.val) = k.val := by decide

theorem quantTable_getD (vals : List Byte) {z : Nat} (hz : z < 64) :
    (quantTable vals).toList.getD z 0 = (vals.getD (zig.idxOf z) 0).setWidth 32 * ipsfAt z := by
  rw [List.getD_eq_getElem _ _ (by rw [Vector.length_toList]; exact hz), Vector.getElem_toList]
  exact Vector.getElem_ofFn _

/-! The arena bytes that a table under way has taken (R62). -/

/-- `s` with `n` bytes more counted in USED. -/
def State.allocated (s : State) (n : Nat) : State := s.setJd { s.jd with used := BitVec.ofNat 16 (s.jd.used.toNat + n) }

theorem State.allocated_zero (s : State) : s.allocated 0 = s := by
  unfold State.allocated
  rw [Nat.add_zero, BitVec.ofNat_toNat, BitVec.setWidth_eq]
  exact s.setJd_self

theorem State.allocated_allocated (s : State) (m n : Nat) : (s.allocated m).allocated n = s.allocated (m + n) := by
  simp only [State.allocated, State.setJd_jd, used_add, State.setJd_setJd]

theorem State.allocated_used {s : State} {n : Nat} (h : s.jd.used.toNat + n ≤ s.params.poolSize.toNat) :
    (s.allocated n).jd.used.toNat = s.jd.used.toNat + n := by
  have := s.params.poolSize.isLt
  unfold State.allocated
  rw [State.setJd_jd, BitVec.toNat_ofNat, Nat.mod_eq_of_lt (by omega)]

/-- One more allocation that the arena can hold. -/
theorem allocOrMem1_more {s : State} {m n : Nat} (h : s.jd.used.toNat + (m + up4 n) ≤ s.params.poolSize.toNat) :
    allocOrMem1 n (s.allocated m) = .ok () (s.allocated (m + up4 n)) := by
  have hu := State.allocated_used (s := s) (n := m) (by omega)
  have hfits : (s.allocated m).jd.used.toNat + up4 n ≤ s.params.poolSize.toNat := by omega
  rw [← State.allocated_allocated]
  exact allocOrMem1_fits hfits

/-- One more allocation that the arena cannot hold. -/
theorem allocOrMem1_no_more {s : State} {m n : Nat} (hm : s.jd.used.toNat + m ≤ s.params.poolSize.toNat)
    (h : s.params.poolSize.toNat < s.jd.used.toNat + (m + up4 n)) :
    allocOrMem1 n (s.allocated m) = .ends .mem1 (s.allocated m) := by
  have hu := State.allocated_used hm
  have hfull : s.params.poolSize.toNat - (s.allocated m).jd.used.toNat < up4 n := by omega
  exact allocOrMem1_exhausted hfull

/-- A state in which some Huffman tables stand, with `n` bytes more allocated. -/
theorem dht_placed_allocated (s : State) (ts : List ((Bool × Bool) × List Byte × List Byte)) (n : Nat) :
    (s.placed dhtPlace ts).allocated n = s.setJd { s.jd with
      used := BitVec.ofNat 16 (s.jd.used.toNat + (ts.map fun t => huffArena t.2.1).sum + n)
      huff := ts.foldl (fun h t => h.set t.1.1 t.1.2 ⟨t.2.1, canonicalCodes t.2.1, t.2.2⟩) s.jd.huff } := by
  rw [State.placed, placeAll_dht]
  simp only [State.allocated, State.setJd_jd, used_add, State.setJd_setJd, Nat.add_assoc]

/-! A Huffman table that fails (R127). -/

theorem up4_sixteen : up4 16 = 16 := rfl

theorem dhtTable_malformed {seg : List Byte} (s : State) (h : seg.length < 17 ∨ seg.getD 0 0 &&& 0xEE ≠ 0) :
    dhtTable seg s = .ends .fmt1 s := by
  unfold dhtTable
  rcases h with h | h
  · rw [if_pos h]
  · dsimp only
    rw [if_pos h, ite_self]

/-- `np` of the table at the start of some segment bytes (R127). -/
def dhtCount (seg : List Byte) : Nat := codeCount ((seg.drop 1).take 16)

/-- The end of a table's rule, behind the allocations for its counts and its code words: the check of the number of values, their
allocation, and the check of a DC table's values (R127). -/
def dhtValues (seg : List Byte) (s : State) : Res (List Byte) :=
  if seg.length - 17 < dhtCount seg then .ends .fmt1 s
  else (allocOrMem1 (dhtCount seg) s).bind fun _ s =>
    if seg.getD 0 0 &&& 0x10 = 0 ∧ ((seg.drop 17).take (dhtCount seg)).any (fun v => decide (11 < v.toNat)) then
      .ends .fmt1 s
    else .ok ((seg.drop 17).drop (dhtCount seg)) (s.setJd { s.jd with
      huff := s.jd.huff.set ((seg.getD 0 0).getLsbD 0) ((seg.getD 0 0).getLsbD 4)
        ⟨(seg.drop 1).take 16, canonicalCodes ((seg.drop 1).take 16), (seg.drop 17).take (dhtCount seg)⟩ })

section
variable {seg : List Byte} {s : State}

theorem dhtTable_header (hlen : 17 ≤ seg.length) (hd : seg.getD 0 0 &&& 0xEE = 0) :
    dhtTable seg s =
      (allocOrMem1 16 s).bind fun _ s => (allocOrMem1 (2 * dhtCount seg) s).bind fun _ s => dhtValues seg s := by
  unfold dhtTable dhtValues
  dsimp only
  rw [if_neg (by omega), if_neg (not_not.mpr hd), List.length_drop]
  rfl

/-- The arena cannot hold the counts. -/
theorem dhtTable_no_counts (hlen : 17 ≤ seg.length) (hd : seg.getD 0 0 &&& 0xEE = 0)
    (hused : s.jd.used.toNat ≤ s.params.poolSize.toNat) (h : s.params.poolSize.toNat < s.jd.used.toNat + 16) :
    dhtTable seg s = .ends .mem1 (s.allocated 0) := by
  have h16 := allocOrMem1_no_more (m := 0) (n := 16) hused (by rw [up4_sixteen]; omega)
  rw [s.allocated_zero] at h16 ⊢
  rw [dhtTable_header hlen hd, h16, Res.bind_ends]

/-- The arena can hold the counts: the code words come next. -/
theorem dhtTable_counts (hlen : 17 ≤ seg.length) (hd : seg.getD 0 0 &&& 0xEE = 0)
    (h : s.jd.used.toNat + 16 ≤ s.params.poolSize.toNat) :
    dhtTable seg s = (allocOrMem1 (2 * dhtCount seg) (s.allocated 16)).bind fun _ s => dhtValues seg s := by
  have h16 := allocOrMem1_more (s := s) (m := 0) (n := 16) (by rw [up4_sixteen]; omega)
  rw [s.allocated_zero] at h16
  rw [dhtTable_header hlen hd, h16, Res.bind_ok, up4_sixteen]

/-- The arena cannot hold the code words. -/
theorem dhtTable_no_codes (hlen : 17 ≤ seg.length) (hd : seg.getD 0 0 &&& 0xEE = 0)
    (h16 : s.jd.used.toNat + 16 ≤ s.params.poolSize.toNat)
    (h : s.params.poolSize.toNat < s.jd.used.toNat + (16 + up4 (2 * dhtCount seg))) :
    dhtTable seg s = .ends .mem1 (s.allocated 16) := by
  rw [dhtTable_counts hlen hd h16, allocOrMem1_no_more h16 h, Res.bind_ends]

/-- The arena can hold the counts and the code words: the values come next. -/
theorem dhtTable_codes (hlen : 17 ≤ seg.length) (hd : seg.getD 0 0 &&& 0xEE = 0)
    (h : s.jd.used.toNat + (16 + up4 (2 * dhtCount seg)) ≤ s.params.poolSize.toNat) :
    dhtTable seg s = dhtValues seg (s.allocated (16 + up4 (2 * dhtCount seg))) := by
  rw [dhtTable_counts hlen hd (by omega), allocOrMem1_more h, Res.bind_ok]

theorem dhtValues_short (h : seg.length - 17 < dhtCount seg) : dhtValues seg s = .ends .fmt1 s :=
  if_pos h

/-- The arena cannot hold the values. -/
theorem dhtValues_no_values {m : Nat} (hlen : dhtCount seg ≤ seg.length - 17)
    (hm : s.jd.used.toNat + m ≤ s.params.poolSize.toNat)
    (h : s.params.poolSize.toNat < s.jd.used.toNat + (m + up4 (dhtCount seg))) :
    dhtValues seg (s.allocated m) = .ends .mem1 (s.allocated m) := by
  unfold dhtValues
  rw [if_neg (Nat.not_lt.mpr hlen), allocOrMem1_no_more hm h, Res.bind_ends]

/-- A value above 11 in a DC table. -/
theorem dhtValues_dcRange {m : Nat} (hlen : dhtCount seg ≤ seg.length - 17)
    (h : s.jd.used.toNat + (m + up4 (dhtCount seg)) ≤ s.params.poolSize.toNat)
    (hdc : (seg.getD 0 0).getLsbD 4 = false) (hv : ∃ v ∈ (seg.drop 17).take (dhtCount seg), 11 < v.toNat) :
    dhtValues seg (s.allocated m) = .ends .fmt1 (s.allocated (m + up4 (dhtCount seg))) := by
  have hany : ((seg.drop 17).take (dhtCount seg)).any (fun v => decide (11 < v.toNat)) = true := by
    obtain ⟨v, hmem, hgt⟩ := hv
    exact List.any_eq_true.mpr ⟨v, hmem, decide_eq_true hgt⟩
  unfold dhtValues
  rw [if_neg (Nat.not_lt.mpr hlen), allocOrMem1_more h, Res.bind_ok, if_pos ⟨classBit_eq_zero _ hdc, hany⟩]

/-! A quantization table that fails (R129). -/

theorem dqtTable_malformed (s : State)
    (h : seg.length < 65 ∨ seg.getD 0 0 &&& 0xF0 ≠ 0 ∨ 3 < (seg.getD 0 0 &&& 0x0F).toNat) :
    dqtTable seg s = .ends .fmt1 s := by
  unfold dqtTable
  dsimp only
  rcases h with h | h | h
  · rw [if_pos h]
  · rw [if_pos h, ite_self]
  · rw [if_pos h, ite_self, ite_self]

theorem dqtTable_exhausted (hlen : 65 ≤ seg.length) (hd : seg.getD 0 0 &&& 0xF0 = 0) (hid : (seg.getD 0 0 &&& 0x0F).toNat ≤ 3)
    (h : s.params.poolSize.toNat - s.jd.used.toNat < 256) : dqtTable seg s = .ends .mem1 s := by
  have h256 : allocOrMem1 256 s = .ends .mem1 s := allocOrMem1_exhausted h
  unfold dqtTable
  dsimp only
  rw [if_neg (by omega), if_neg (not_not.mpr hd), if_neg (by omega), h256, Res.bind_ends]

end

/-! The instructions DHT and DQT on a loaded segment. -/

section
variable {lseg : Half} {s : State} {len : Nat}

theorem exec_mkDht (hl : lseg.toNat = len + 2) (h0 : 0 < len) (hm : len ≤ 512) (hready : SourceReady s len) :
    exec (.mkDht lseg) s = (dhtBody (sourceBytes s len) (s.advance len)).finish :=
  congrArg Res.finish (withBody_ready dhtBody hl h0 hm hready)

theorem exec_mkDqt (hl : lseg.toNat = len + 2) (h0 : 0 < len) (hm : len ≤ 512) (hready : SourceReady s len) :
    exec (.mkDqt lseg) s = (dqtBody (sourceBytes s len) (s.advance len)).finish :=
  congrArg Res.finish (withBody_ready dqtBody hl h0 hm hready)

theorem dhtBody_ends {ts : List ((Bool × Bool) × List Byte × List Byte)} (hts : ∀ t ∈ ts, DhtLegal t) {seg : List Byte}
    (hne : seg ≠ []) (hfit : s.jd.used.toNat + (ts.map fun t => huffArena t.2.1).sum ≤ s.params.poolSize.toNat)
    {r : ResultCode} {u : State} (hends : dhtTable seg (s.placed dhtPlace ts) = .ends r u) :
    dhtBody (ts.flatMap dhtBytes ++ seg) s = .ends r u := by
  have hloop := tableLoop_ends (fun t ht => dht_places (hts t ht)) hne hfit hends
  unfold dhtBody
  rw [hloop, Res.bind_ends]

theorem dqtBody_ends {ts : List (BitVec 2 × List Byte)} (hts : ∀ t ∈ ts, t.2.length = 64) {seg : List Byte}
    (hne : seg ≠ []) (hfit : s.jd.used.toNat + (ts.map fun _ => 256).sum ≤ s.params.poolSize.toNat) {r : ResultCode}
    {u : State} (hends : dqtTable seg (s.placed dqtPlace ts) = .ends r u) :
    dqtBody (ts.flatMap dqtBytes ++ seg) s = .ends r u := by
  have hloop := tableLoop_ends (fun t ht => dqt_places (hts t ht)) hne hfit hends
  unfold dqtBody
  rw [hloop, Res.bind_ends]

end

end Sys2Proof.Machine

namespace Sys2Proof.Proofs

open Sys2Proof.Machine

/-- Settles O23: the loop places each table, and ZIG names each place once. -/
theorem dqtTables : Obligations.DqtTables := by
  refine ⟨fun lseg s len ts hl h0 hm hready hsrc hts hfit => ?_, fun vals k => ?_⟩
  · have hbytes : sourceBytes s len = ts.flatMap dqtBytes := hsrc
    rw [← dqt_cost] at hfit
    have hloop := tableLoop_whole (fun t ht => dqt_places (hts t ht)) (s.advance len) hfit
    rw [exec_mkDqt hl h0 hm hready, hbytes, dqtBody, hloop, State.placed, placeAll_dqt]
    rfl
  · obtain ⟨hlt, hidx⟩ := zig_idxOf_zigAt k
    rw [quantTable_getD vals hlt, hidx]

/-- Settles O24: the loop places each table. -/
theorem dhtTables : Obligations.DhtTables := by
  intro lseg s len ts hl h0 hm hready hsrc hts hfit
  have hloop := tableLoop_whole (fun t ht => dht_places (hts t ht)) (s.advance len) hfit
  rw [exec_mkDht hl h0 hm hready, hsrc, dhtBody, hloop, State.placed, placeAll_dht]
  rfl

/-- Settles O25: the loop places the legal tables, and the next one raises at its first check or allocation that fails. -/
theorem tableErrors : Obligations.TableErrors := by
  intro lseg s len hl h0 hm hready s1
  constructor
  · intro ts seg hsrc hne hts used hfit free d np ended
    have hends : ∀ r n, dhtTable seg (s1.placed dhtPlace ts) = .ends r ((s1.placed dhtPlace ts).allocated n) →
        ended r n := by
      intro r n h
      refine (exec_mkDht hl h0 hm hready).trans ?_
      rw [hsrc, dhtBody_ends (s := s1) hts hne hfit h, dht_placed_allocated]
      rfl
    have hnp : np = dhtCount seg := rfl
    have hused : (s1.placed dhtPlace ts).jd.used.toNat = used :=
      State.placed_used (fun t ht => dht_places (hts t ht)) hfit
    have hpool : (s1.placed dhtPlace ts).params.poolSize = s.params.poolSize := rfl
    clear_value np
    subst hnp
    generalize s1.placed dhtPlace ts = u at hends hused hpool
    rw [← hpool] at hfit
    have hfree : free = u.params.poolSize.toNat - u.jd.used.toNat := by rw [hused, hpool]
    refine ⟨fun h => hends _ _ ?_, fun hlen hd => ⟨fun h => hends _ _ ?_, fun h16 h => hends _ _ ?_,
      fun h => ⟨fun hnp => hends _ _ ?_, fun hnp hfull => hends _ _ ?_, fun hnp hfits hdc hv => hends _ _ ?_⟩⟩⟩
    · rw [u.allocated_zero]
      exact dhtTable_malformed u h
    · exact dhtTable_no_counts hlen hd (by omega) (by omega)
    · exact dhtTable_no_codes hlen hd (by omega) (by omega)
    · exact (dhtTable_codes hlen hd (by omega)).trans (dhtValues_short hnp)
    · exact (dhtTable_codes hlen hd (by omega)).trans (dhtValues_no_values hnp (by omega) (by omega))
    · exact (dhtTable_codes hlen hd (by omega)).trans (dhtValues_dcRange hnp (by omega) hdc hv)
  · intro ts seg hsrc hne hts used hfit d ended
    have hbytes : sourceBytes s len = ts.flatMap dqtBytes ++ seg := hsrc
    have hcost : s1.jd.used.toNat + (ts.map fun _ => 256).sum ≤ s1.params.poolSize.toNat := by rwa [dqt_cost]
    have hends : ∀ r, dqtTable seg (s1.placed dqtPlace ts) = .ends r (s1.placed dqtPlace ts) → ended r := by
      intro r h
      refine (exec_mkDqt hl h0 hm hready).trans ?_
      rw [hbytes, dqtBody_ends hts hne hcost h, State.placed, placeAll_dqt]
      rfl
    have hused : (s1.placed dqtPlace ts).jd.used.toNat = used := by
      rw [State.placed_used (fun t ht => dqt_places (hts t ht)) hcost, dqt_cost]
      rfl
    refine ⟨fun h => hends _ (dqtTable_malformed _ h), fun hlen hd hid hfull => hends _ ?_⟩
    exact dqtTable_exhausted hlen hd hid (by rw [hused]; exact hfull)

end Sys2Proof.Proofs
end

section
/-! PROOFS of the statements about the encoding (R80 to R100) and the packet header (R86): the decoder port by port, what it makes
of an encoding, and that what it answers is well formed. -/

namespace Sys2Proof

/-! The decoder on an encoding, port by port. -/

theorem packetInstr_unknown {t : Byte} (p : Packet) (h : 9 ≤ t.toNat) : packetInstr t p = .pktUnknown t p := by
  have hne : ∀ c : Byte, c.toNat < 9 → t ≠ c := by
    rintro c hc rfl
    omega
  simp (disch := decide) only [packetInstr, hne, if_false]

theorem decode_encodePacket (t : Byte) {p : Packet} (h : p.wf = true) :
    decode .radio (encodePacket t p) = .ok (packetInstr t p) :=
  if_neg (Nat.not_lt.mpr (Laws.EncodeLength.of_packet t p h).2)

theorem decode_leBytes {off : Nat} {w : Word} {i : Instr} (h : decodeRegister off w = some i) :
    decode (.reg off) (leBytes w) = .ok i := by
  unfold decode leBytes
  dsimp only
  rw [Machine.wordOfLe_leBytes, h]

theorem decodeRegister_intW1c (clear : Byte) : decodeRegister 0xC0 (clear.setWidth 32) = some (.intW1c clear) := by
  have hlow : (clear.setWidth 32).extractLsb' 0 8 = clear := by
    rw [← BitVec.setWidth_eq_extractLsb' (by decide), BitVec.setWidth_setWidth_of_le _ (by decide), BitVec.setWidth_eq]
  exact congrArg (fun c => some (Instr.intW1c c)) hlow

theorem markerInstr_other {c : Byte} (lseg : Half) (h : namedMarkers.contains c = false) :
    markerInstr c lseg = .mkOther c lseg := by
  have hne : ∀ d ∈ namedMarkers, c ≠ d := by
    rintro d hd rfl
    rw [List.contains_iff_mem.mpr hd] at h
    cases h
  simp (disch := decide) only [markerInstr, hne, if_false]

theorem decode_encodeMarker (c : Byte) (lseg : Half) : decode .header (encodeMarker c lseg) = .ok (markerInstr c lseg) := by
  have hl : lseg.extractLsb' 8 8 ++ lseg.extractLsb' 0 8 = lseg :=
    (BitVec.extractLsb'_append_extractLsb'_eq_extractLsb' rfl).trans BitVec.extractLsb'_eq_self
  show Except.ok (markerInstr c (lseg.extractLsb' 8 8 ++ lseg.extractLsb' 0 8)) = _
  rw [hl]

theorem decode_restart : ∀ n : BitVec 3, decode .restart [0xFF, (0b11010 : BitVec 5) ++ n] = .ok (.mkRstn n) := by decide

theorem decode_markerInData {xx : Byte} (h : xx ≠ 0) : decode .entropy [0xFF, xx] = .ok (.edMarkerInData xx) :=
  if_neg h

theorem dcInstr_class : ∀ s : BitVec 4, 1 ≤ s.toNat → s.toNat ≤ 11 → dcInstr ((0 : BitVec 4) ++ s) = .ok (.dcClass s) := by
  decide

/-- The two halves of an AC symbol (R96). -/
theorem acSymbol_halves (r s : BitVec 4) : (r ++ s).extractLsb' 4 4 = r ∧ (r ++ s).extractLsb' 0 4 = s :=
  ⟨BitVec.extractLsb'_append_eq_left, BitVec.extractLsb'_append_eq_right⟩

theorem acInstr_runSkip : ∀ r : BitVec 4, 1 ≤ r.toNat → r.toNat ≤ 14 → acInstr (r ++ (0 : BitVec 4)) = .acRunSkip r := by
  decide

theorem acInstr_runSize (r : BitVec 4) {s : BitVec 4} (h1 : 1 ≤ s.toNat) (h11 : s.toNat ≤ 11) :
    acInstr (r ++ s) = .acRunSize r s := by
  have h0 : s ≠ 0 := by
    rintro rfl
    cases h1
  obtain ⟨hr, hs⟩ := acSymbol_halves r s
  simp only [acInstr, hr, hs, if_neg h0, if_pos h11]

theorem acInstr_badClass (r : BitVec 4) {s : BitVec 4} (h12 : 12 ≤ s.toNat) : acInstr (r ++ s) = .acBadClass r s := by
  have h0 : s ≠ 0 := by
    rintro rfl
    cases h12
  obtain ⟨hr, hs⟩ := acSymbol_halves r s
  simp only [acInstr, hr, hs, if_neg h0, if_neg (Nat.not_le.mpr h12)]

/-! What the decoder answers is well formed, port by port. -/

theorem packetInstr_wf (t : Byte) {p : Packet} (h : p.wf = true) : WellFormed (packetInstr t p) := by
  by_cases ht : 9 ≤ t.toNat
  · rw [packetInstr_unknown p ht]
    exact Bool.and_eq_true_iff.mpr ⟨decide_eq_true ht, h⟩
  · have hlow : ∀ t : Byte, ¬ 9 ≤ t.toNat → t ∈ [0x00, 0x01, 0x02, 0x03, 0x04, 0x05, 0x06, 0x07, 0x08] := by decide
    have hall : ∀ t ∈ [(0x00 : Byte), 0x01, 0x02, 0x03, 0x04, 0x05, 0x06, 0x07, 0x08], (packetInstr t p).wf = p.wf := by
      simp only [List.forall_mem_cons]
      exact ⟨rfl, rfl, rfl, rfl, rfl, rfl, rfl, rfl, rfl, nofun⟩
    exact (hall t (hlow t ht)).trans h

theorem decodePacket_wf {d : List Byte} {i : Instr} (h : decodePacket d = .ok i) : WellFormed i := by
  unfold decodePacket at h
  split at h
  · cases h
  · rename_i hlen
    split at h
    · cases h
      refine packetInstr_wf _ (decide_eq_true ?_)
      simp only [List.length_cons] at hlen
      unfold Config.hdrSize
      dsimp only
      omega
    · cases h

theorem decodeRegister_wf {off : Nat} {w : Word} {i : Instr} (h : decodeRegister off w = some i) : WellFormed i := by
  unfold decodeRegister at h
  dsimp only at h
  split_ifs at h <;> cases h <;> rfl

theorem markerInstr_wf (c : Byte) (lseg : Half) : WellFormed (markerInstr c lseg) := by
  cases h : namedMarkers.contains c with
  | false =>
    rw [markerInstr_other lseg h]
    exact congrArg (! ·) h
  | true =>
    have hall : ∀ c ∈ namedMarkers, (markerInstr c lseg).wf = true := by
      simp only [namedMarkers, List.forall_mem_cons]
      exact ⟨rfl, rfl, rfl, rfl, rfl, rfl, rfl, rfl, rfl, rfl, rfl, rfl, rfl, rfl, rfl, rfl, rfl, rfl, nofun⟩
    exact hall c (List.contains_iff_mem.mp h)

theorem dcInstr_wf {b : Byte} {i : Instr} (h : dcInstr b = .ok i) : WellFormed i := by
  have hclass : ∀ b : Byte, b ≠ 0 → b.toNat ≤ 11 → (Instr.dcClass (b.extractLsb' 0 4)).wf = true := by decide
  unfold dcInstr at h
  split_ifs at h with h0 h11
  · cases h
    rfl
  · cases h
    exact hclass b h0 h11

theorem acInstr_wf : ∀ b : Byte, WellFormed (acInstr b) := by decide

theorem decode_wf {p : Port} {bs : List Byte} {i : Instr} (h : decode p bs = .ok i) : WellFormed i := by
  cases p with
  | radio => exact decodePacket_wf h
  | reg off =>
    simp only [decode] at h
    split at h
    · split at h
      · rename_i hi
        cases h
        exact decodeRegister_wf hi
      · cases h
    · cases h
  | header =>
    simp only [decode] at h
    split at h
    · split at h
      · cases h
        exact markerInstr_wf _ _
      · cases h
    · cases h
  | dcSymbol =>
    simp only [decode] at h
    split at h
    · exact dcInstr_wf h
    · cases h
  | acSymbol =>
    simp only [decode] at h
    split at h
    · cases h
      exact acInstr_wf _
    · cases h
  | entropy =>
    simp only [decode] at h
    split at h
    · split_ifs at h with hb hc
      · cases h
        rfl
      · cases h
        exact decide_eq_true hc
    · cases h
  | soi | restart =>
    simp only [decode] at h
    split at h
    · split_ifs at h
      cases h
      rfl
    · cases h

/-- The bytes of a word made of four bytes are those bytes (R64). -/
theorem leBytes_wordOfLe (b0 b1 b2 b3 : Byte) : leBytes (wordOfLe b0 b1 b2 b3) = [b0, b1, b2, b3] := by
  unfold leBytes wordOfLe
  have h0 : (b3 ++ b2 ++ b1 ++ b0).extractLsb' 0 8 = b0 := BitVec.extractLsb'_append_eq_right
  have h1 : (b3 ++ b2 ++ b1 ++ b0).extractLsb' 8 8 = b1 :=
    (BitVec.extractLsb'_append_eq_of_le (by decide)).trans BitVec.extractLsb'_append_eq_right
  have h2 : (b3 ++ b2 ++ b1 ++ b0).extractLsb' 16 8 = b2 :=
    (BitVec.extractLsb'_append_eq_of_le (by decide)).trans
      ((BitVec.extractLsb'_append_eq_of_le (by decide)).trans BitVec.extractLsb'_append_eq_right)
  have h3 : (b3 ++ b2 ++ b1 ++ b0).extractLsb' 24 8 = b3 :=
    (BitVec.extractLsb'_append_eq_of_le (by decide)).trans
      ((BitVec.extractLsb'_append_eq_of_le (by decide)).trans BitVec.extractLsb'_append_eq_left)
  exact congrArg₂ List.cons h0 (congrArg₂ List.cons h1 (congrArg₂ List.cons h2 (congrArg (fun b => [b]) h3)))

end Sys2Proof

namespace Sys2Proof.Machine

/-- The second header byte: FINAL at bit 1 and ENC at bit 0 (R82, R86). -/
theorem headerFlags_eq : ∀ e f : Bool,
    (0 : BitVec 6) ++ BitVec.ofBool f ++ BitVec.ofBool e =
      ((BitVec.ofBool f).setWidth 8 <<< 1 ||| (BitVec.ofBool e).setWidth 8 : Byte) := by decide

theorem headerFlags_bits : ∀ e f : Bool,
    ((BitVec.ofBool f).setWidth 8 <<< 1 ||| (BitVec.ofBool e).setWidth 8 : Byte).getLsbD 0 = e ∧
    ((BitVec.ofBool f).setWidth 8 <<< 1 ||| (BitVec.ofBool e).setWidth 8 : Byte).getLsbD 1 = f := by decide

theorem hdrWord_inj (b0 b1 b2 b3 c0 c1 c2 c3 : Byte) :
    hdrWord b0 b1 b2 b3 = hdrWord c0 c1 c2 c3 ↔ [b0, b1, b2, b3] = [c0, c1, c2, c3] := by
  constructor
  · intro h
    rw [← leBytes_wordOfLe, ← leBytes_wordOfLe]
    exact congrArg leBytes h
  · intro h
    cases h
    rfl

theorem hdrWord_eq_or (b0 b1 b2 b3 : Byte) : hdrWord b0 b1 b2 b3 =
    b0.setWidth 32 ||| (b1.setWidth 32 <<< 8) ||| (b2.setWidth 32 <<< 16) ||| (b3.setWidth 32 <<< 24) := by
  have happend : hdrWord b0 b1 b2 b3 =
      (b3.setWidth 32 <<< 24) ||| (b2.setWidth 32 <<< 16) ||| (b1.setWidth 32 <<< 8) ||| b0.setWidth 32 :=
    (BitVec.setWidth_eq _).symm.trans BitVec.setWidth_append_append_append_eq_shiftLeft_setWidth_or
  have hreverse : ∀ w x y z : Word, z ||| y ||| x ||| w = w ||| x ||| y ||| z := fun w x y z => by ac_rfl
  exact happend.trans (hreverse _ _ _ _)

end Sys2Proof.Machine

namespace Sys2Proof.Proofs

open Sys2Proof.Machine

/-- Settles O1: each family of encodings decodes at its port, by what the port's decoder makes of its fields. -/
theorem decodeInvertsEncode : Obligations.DecodeInvertsEncode := by
  intro i hwf
  cases i with
  | pktAck p | pktNak p | pktInitialHeaderData p | pktFrameData p | pktTelemetry p | pktPing p | pktSwitchChannel p
  | pktTxPowerUpdate p | pktEnableLed p => exact decode_encodePacket _ hwf
  | pktUnknown t p =>
    obtain ⟨ht, hp⟩ := Bool.and_eq_true_iff.mp hwf
    exact (decode_encodePacket t hp).trans (congrArg Except.ok (packetInstr_unknown p (of_decide_eq_true ht)))
  | jdNop b | jdPrepare b | jdDecomp b | jdReserved b | rxTake b | txcFragStart b =>
    exact decode_leBytes (by cases b <;> rfl)
  | rxClrSticky | txcCaptureReq => exact decode_leBytes rfl
  | intW1c clear => exact decode_leBytes (decodeRegister_intW1c clear)
  | mkSof0 lseg | mkDht lseg | mkDqt lseg | mkDri lseg | mkSos lseg | mkSof1Reject lseg | mkSof2Reject lseg
  | mkSof3Reject lseg | mkSof5Reject lseg | mkSof6Reject lseg | mkSof7Reject lseg | mkSof9Reject lseg
  | mkSof10Reject lseg | mkSof11Reject lseg | mkSof13Reject lseg | mkSof14Reject lseg | mkSof15Reject lseg
  | mkEoiReject lseg => exact decode_encodeMarker _ lseg
  | mkOther c lseg =>
    exact (decode_encodeMarker c lseg).trans (congrArg Except.ok (markerInstr_other lseg (Bool.not_eq_eq_eq_not.mp hwf)))
  | mkRstn n => exact decode_restart n
  | edMarkerInData xx => exact decode_markerInData (of_decide_eq_true hwf)
  | dcClass ssss =>
    obtain ⟨h1, h11⟩ := Bool.and_eq_true_iff.mp hwf
    exact dcInstr_class ssss (of_decide_eq_true h1) (of_decide_eq_true h11)
  | acRunSkip rrrr =>
    obtain ⟨h1, h14⟩ := Bool.and_eq_true_iff.mp hwf
    exact congrArg Except.ok (acInstr_runSkip rrrr (of_decide_eq_true h1) (of_decide_eq_true h14))
  | acRunSize rrrr ssss =>
    obtain ⟨h1, h11⟩ := Bool.and_eq_true_iff.mp hwf
    exact congrArg Except.ok (acInstr_runSize rrrr (of_decide_eq_true h1) (of_decide_eq_true h11))
  | acBadClass rrrr ssss => exact congrArg Except.ok (acInstr_badClass rrrr (of_decide_eq_true hwf))
  | mkSoi | edStuffedFF | dcClass0 | acEob | acZrl => rfl

/-- Settles O2: what each port's decoder answers is well formed, and of that port. -/
theorem decodedIsWellFormed : Obligations.DecodedIsWellFormed :=
  fun _ _ _ h => ⟨decode_wf h, decode_portOf h⟩

/-- Settles O3: the flags byte has ENC and FINAL in its two low bits, and the bytes of the header word are the header. -/
theorem packetHeaderRoundTrip : Obligations.PacketHeaderRoundTrip := by
  refine ⟨fun t e f n => ⟨?_, ?_⟩, fun b0 b1 b2 b3 => ⟨rfl, hdrWord_eq_or b0 b1 b2 b3⟩, hdrWord_inj⟩
  · rw [hdrPack, headerFlags_eq]
  · obtain ⟨he, hf⟩ := headerFlags_bits e f
    rw [hdrUnpack, he, hf]

/-- Settles O4: the eight words are encodings, so they decode to what they encode (O1). -/
theorem decodedWords : Obligations.DecodedWords :=
  ⟨decodeInvertsEncode (.pktFrameData ⟨0x02, 0x01, 0x00, [0x07, 0xAA]⟩) rfl, decodeInvertsEncode (.jdPrepare true) rfl,
    decodeInvertsEncode (.txcFragStart true) rfl, decodeInvertsEncode (.mkDht 0x004E) rfl, decodeInvertsEncode (.mkRstn 5) rfl,
    decodeInvertsEncode .edStuffedFF rfl, decodeInvertsEncode (.dcClass 11) rfl, decodeInvertsEncode (.acRunSize 14 1) rfl⟩

end Sys2Proof.Proofs
end

section
/-! PROOFS of the statement about the packets that pass through (R84, R237) or are dropped by their type (R239). -/

namespace Sys2Proof.Machine

/-- A control packet that holds its payload goes out unchanged (R84, R237). -/
theorem passThrough_sends {p : Packet} (t : Byte) (s : State) (h : p.size.toNat ≤ p.body.length) :
    passThrough t p s = { s with out := .ctrlOut (t :: p.flags :: p.size :: p.rsv :: p.body) :: s.out } :=
  if_neg (Nat.not_lt.mpr h)

/-- A drop for another reason than BOUNDS leaves BOUNDS (R310). -/
theorem dropDatagram_of_ne_bounds {r : DropReason} (s : State) (h : r ≠ .bounds) : dropDatagram r s = { s with
    rx := { s.rx with dropCnt := s.rx.dropCnt + 1 }
    intr := { s.intr with status := s.intr.status ||| 0x08 } } := by
  unfold dropDatagram
  rw [decide_eq_false h, Bool.or_false, State.event, State.setRx_intr, ← intUpdate_no_clear]
  rfl

end Sys2Proof.Machine

namespace Sys2Proof.Proofs

open Sys2Proof.Machine

/-- Settles O9: the six packets pass through, and an unknown type is a drop that leaves BOUNDS. -/
theorem controlPacketsPassThrough : Obligations.ControlPacketsPassThrough := by
  intro p s
  refine ⟨fun hfits => ?_, fun t => congrArg Host.Outcome.next (dropDatagram_of_ne_bounds s (by decide))⟩
  intro sent
  have hsent : ∀ t, Host.Outcome.next (passThrough t p s) = (.next (sent t) : Host.Outcome State Fault Refusal) := fun t =>
    congrArg Host.Outcome.next (passThrough_sends t s hfits)
  exact ⟨hsent 0x01, hsent 0x04, hsent 0x05, hsent 0x06, hsent 0x07, hsent 0x08⟩

end Sys2Proof.Proofs
end

section
/-! PROOFS of the statement about the canonical code words (R97). -/

namespace Sys2Proof.Machine

/-- The number of the first code word of `l + 1` bits, where that of 1 bit is `f` (R97). -/
def firstCode (bits : List Byte) (f : Nat) : Nat → Nat
  | 0 => f
  | l + 1 => 2 * (firstCode bits f l + (bits.getD l 0).toNat)

theorem firstCode_cons (n : Byte) (bits : List Byte) (f l : Nat) :
    firstCode (n :: bits) f (l + 1) = firstCode bits (2 * (f + n.toNat)) l := by
  induction l with
  | zero => rfl
  | succ l ih => rw [firstCode, ih, firstCode, List.getD_cons_succ]

theorem codeCount_cons (n : Byte) (bits : List Byte) : codeCount (n :: bits) = n.toNat + codeCount bits := by
  simp [codeCount]

theorem codeCount_take_succ (bits : List Byte) (l : Nat) :
    codeCount (bits.take (l + 1)) = codeCount (bits.take l) + (bits.getD l 0).toNat := by
  induction bits generalizing l with
  | nil => simp
  | cons n bits ih =>
    cases l with
    | zero => simp [codeCount]
    | succ l => simp only [List.take_succ_cons, codeCount_cons, ih, List.getD_cons_succ, Nat.add_assoc]

theorem codesFrom_length (bits : List Byte) (hc : Half) : (codesFrom bits hc).length = codeCount bits := by
  induction bits generalizing hc with
  | nil => rfl
  | cons n bits ih =>
    rw [codesFrom, List.length_append, List.length_map, List.length_range, ih, codeCount_cons]

/-- A halfword shifted left by one is its double modulo 2^16. -/
theorem half_shift_one (x : Nat) : (BitVec.ofNat 16 x : Half) <<< 1 = BitVec.ofNat 16 (2 * x) := by
  apply BitVec.eq_of_toNat_eq
  simp only [BitVec.toNat_shiftLeft, BitVec.toNat_ofNat, Nat.shiftLeft_eq]
  omega

theorem codesFrom_cons (n : Byte) (bits : List Byte) (f : Nat) : codesFrom (n :: bits) (BitVec.ofNat 16 f) =
    ((List.range n.toNat).map fun k => BitVec.ofNat 16 (f + k)) ++ codesFrom bits (BitVec.ofNat 16 (2 * (f + n.toNat))) := by
  simp only [codesFrom, ← BitVec.ofNat_add, half_shift_one]

theorem codesFrom_getElem? {bits : List Byte} (f : Nat) {l k : Nat} (hl : l < bits.length) (hk : k < (bits.getD l 0).toNat) :
    (codesFrom bits (BitVec.ofNat 16 f))[codeCount (bits.take l) + k]? = some (BitVec.ofNat 16 (firstCode bits f l + k)) := by
  induction bits generalizing f l with
  | nil => cases hl
  | cons n bits ih =>
    rw [codesFrom_cons]
    cases l with
    | zero =>
      have hk : k < n.toNat := hk
      have h0 : codeCount ((n :: bits).take 0) + k = k := Nat.zero_add k
      rw [h0, List.getElem?_append_left (by simpa using hk), List.getElem?_map, List.getElem?_range hk]
      rfl
    | succ l =>
      have hskip : codeCount ((n :: bits).take (l + 1)) + k = n.toNat + (codeCount (bits.take l) + k) := by
        rw [List.take_succ_cons, codeCount_cons, Nat.add_assoc]
      have hrest := ih (2 * (f + n.toNat)) (Nat.lt_of_succ_lt_succ hl) hk
      rw [hskip, firstCode_cons, List.getElem?_append_right (by simp), ← hrest]
      simp

end Sys2Proof.Machine

namespace Sys2Proof.Proofs

open Sys2Proof.Machine

/-- Settles O26: the first code of each length by its recurrence. -/
theorem canonicalCodes : Obligations.CanonicalCodes :=
  fun bits => ⟨codesFrom_length bits 0, firstCode bits 0, rfl, fun _ => rfl, fun _ hl _ hk => codesFrom_getElem? 0 hl hk⟩

end Sys2Proof.Proofs
end

section
/-! PROOFS of the statements about the bits of the entropy data: BITEXT (R152) with the ends of the source (R151, R155), and
HUFFEXT bit by bit (R153). -/

namespace Sys2Proof.Machine

/-! What a bit reader finds. -/

/-- A bit reader with mask `m` over byte `c` finds the bits `l`, in `c` and in the next `k` source bytes (R94, R152). -/
structure BitsAhead (s : State) (m c : Byte) (k : Nat) (l : List Bool) : Prop where
  mask : ZeroOrOneHot m
  ready : SourceReady s k
  bits : (unstuff (sourceBytes s k)).map (fun data => leftBits m c ++ data.flatMap byteBits) = some l

section
variable {s : State} {m c : Byte} {k : Nat} {l : List Bool}

/-- The bit under the mask comes first (R152). -/
theorem BitsAhead.next (h : BitsAhead s m c k l) (hm : m ≠ 0) :
    ∃ rest, l = decide (c &&& m ≠ 0) :: rest ∧ BitsAhead s (m >>> 1) c k rest := by
  obtain ⟨data, hdata, rfl⟩ := Option.map_eq_some_iff.mp h.bits
  refine ⟨leftBits (m >>> 1) c ++ data.flatMap byteBits, ?_, ZeroOrOneHot.shift m h.mask, h.ready, ?_⟩
  · rw [leftBits_step m c h.mask hm, List.cons_append]
  · rw [hdata, Option.map_some]

theorem leftBits_bit7 (c : Byte) : leftBits 0x80 c = byteBits c := by
  rw [leftBits_step 0x80 c ZeroOrOneHot.bit7 (by decide), byteBits_step]
  rfl

/-- Where the mask is empty and bits are ahead, FetchData gives the byte that holds them (R151, R152). -/
theorem BitsAhead.fetch {b : Bool} (h : BitsAhead s 0 c k (b :: l)) :
    ∃ j ≤ k, ∃ c', fetchData s = .ok c' (s.advance j) ∧ BitsAhead (s.advance j) 0x80 c' (k - j) (b :: l) := by
  obtain ⟨data, hdata, hl⟩ := Option.map_eq_some_iff.mp h.bits
  rw [leftBits_zero, List.nil_append] at hl
  cases data with
  | nil => cases hl
  | cons c' data =>
    obtain ⟨j, hj, hfetch, hready, hrest⟩ := fetchData_ready h.ready hdata
    refine ⟨j, hj, c', hfetch, ZeroOrOneHot.bit7, hready, ?_⟩
    rw [hrest, Option.map_some, leftBits_bit7, ← List.flatMap_cons, hl]

theorem eq_nil_of_unstuff {src : List Byte} (h : unstuff src = some []) : src = [] := by
  match src with
  | [] => rfl
  | [b] =>
    unfold unstuff at h
    split_ifs at h
    cases h
  | b :: c :: bs =>
    unfold unstuff at h
    split_ifs at h <;> simp at h

/-- No bit is ahead only where the mask is empty and no source byte is left. -/
theorem BitsAhead.of_nil (h : BitsAhead s m c k []) : m = 0 ∧ k = 0 := by
  have hm : m = 0 := by
    by_contra hm
    obtain ⟨_, hcons, _⟩ := h.next hm
    cases hcons
  obtain ⟨data, hdata, hl⟩ := Option.map_eq_some_iff.mp h.bits
  cases data with
  | nil => exact ⟨hm, by rw [← sourceBytes_length s k, eq_nil_of_unstuff hdata, List.length_nil]⟩
  | cons b data =>
    rw [List.flatMap_cons, byteBits_step] at hl
    simp at hl

/-- A reader in which bits are ahead has a mask, or gets one by a FetchData. -/
theorem BitsAhead.fill {b : Bool} (h : BitsAhead s m c k (b :: l)) :
    ∃ j ≤ k, ∃ m' c', m' ≠ 0 ∧ BitsAhead (s.advance j) m' c' (k - j) (b :: l) ∧
      ((j = 0 ∧ m' = m ∧ c' = c) ∨ (m = 0 ∧ m' = 0x80 ∧ fetchData s = .ok c' (s.advance j))) := by
  by_cases hm : m = 0
  · subst hm
    obtain ⟨j, hj, c', hfetch, hahead⟩ := h.fetch
    exact ⟨j, hj, 0x80, c', by decide, hahead, .inr ⟨rfl, rfl, hfetch⟩⟩
  · refine ⟨0, Nat.zero_le k, m, c, hm, ?_, .inl ⟨rfl, rfl, rfl⟩⟩
    rw [State.advance_zero, Nat.sub_zero]
    exact h

end

/-! The number some bits write. -/

/-- The number that `x` and then the bits of `l` write (R152). -/
def bitsOnto (x : Nat) (l : List Bool) : Nat := l.foldl (fun v b => 2 * v + b.toNat) x

theorem bitsVal_eq_bitsOnto (l : List Bool) : bitsVal l = bitsOnto 0 l := rfl

theorem bitsVal_concat (l : List Bool) (b : Bool) : bitsVal (l ++ [b]) = 2 * bitsVal l + b.toNat := by
  rw [bitsVal, List.foldl_append]
  rfl

theorem pushBit_ofNat (x : Nat) (m c : Byte) :
    pushBit (BitVec.ofNat 16 x) m c = BitVec.ofNat 16 (2 * x + (decide (c &&& m ≠ 0)).toNat) := by
  have hbit : ∀ b : Bool, (BitVec.ofNat 16 (2 * x) ||| (if b then 1 else 0) : Half) = BitVec.ofNat 16 (2 * x + b.toNat) := by
    intro b
    cases b with
    | false => exact BitVec.or_zero
    | true =>
      have heven : BitVec.ofNat 16 (2 * x) &&& (1 : Half) = 0 := by
        apply BitVec.eq_of_toNat_eq
        rw [BitVec.toNat_and, BitVec.toNat_ofNat]
        show 2 * x % 2 ^ 16 &&& 1 = 0
        rw [Nat.and_one_is_mod]
        omega
      rw [Bool.toNat_true, BitVec.ofNat_add]
      exact (BitVec.add_eq_or_of_and_eq_zero _ _ heven).symm
  unfold pushBit
  rw [half_shift_one, ← hbit]
  simp only [decide_eq_true_eq]

/-! BITEXT. -/

theorem bitextLoop_bit {m : Byte} (hm : m ≠ 0) (n : Nat) (v : Half) (c : Byte) (s : State) :
    bitextLoop (n + 1) v m c s = bitextLoop n (pushBit v m c) (m >>> 1) c s :=
  if_neg hm

theorem bitextLoop_fetch (n : Nat) (v : Half) (c : Byte) {c' : Byte} {s t : State} (h : fetchData s = .ok c' t) :
    bitextLoop (n + 1) v 0 c s = bitextLoop (n + 1) v 0x80 c' t := by
  rw [bitextLoop_bit (m := 0x80) (by decide), bitextLoop, if_pos rfl, h, Res.bind_ok]
  rfl

/-- The loop of BITEXT takes the next bits, and the reader finds the bits after them (R152). -/
theorem bitextLoop_takes {n : Nat} (x : Nat) {s : State} {m c : Byte} {k : Nat} {l : List Bool} (h : BitsAhead s m c k l)
    (hn : n ≤ l.length) :
    ∃ j ≤ k, ∃ m' c', bitextLoop n (BitVec.ofNat 16 x) m c s =
        .ok (BitVec.ofNat 16 (bitsOnto x (l.take n)), m', c') (s.advance j) ∧
      BitsAhead (s.advance j) m' c' (k - j) (l.drop n) := by
  induction n generalizing x s m c k l with
  | zero =>
    refine ⟨0, Nat.zero_le k, m, c, ?_, ?_⟩
    · rw [State.advance_zero]
      rfl
    · rw [State.advance_zero, Nat.sub_zero, List.drop_zero]
      exact h
  | succ n ih =>
    cases l with
    | nil => cases hn
    | cons b l =>
      obtain ⟨j, hj, m', c', hm', hahead, hfill⟩ := h.fill
      obtain ⟨rest, hcons, hrest⟩ := hahead.next hm'
      cases hcons
      have hloop : bitextLoop (n + 1) (BitVec.ofNat 16 x) m c s =
          bitextLoop (n + 1) (BitVec.ofNat 16 x) m' c' (s.advance j) := by
        rcases hfill with ⟨rfl, rfl, rfl⟩ | ⟨rfl, rfl, hfetch⟩
        · rw [State.advance_zero]
        · exact bitextLoop_fetch n _ c hfetch
      obtain ⟨i, hi, m'', c'', htakes, hleft⟩ :=
        ih (2 * x + (decide (c' &&& m' ≠ 0)).toNat) hrest (Nat.le_of_succ_le_succ hn)
      refine ⟨j + i, by omega, m'', c'', ?_, ?_⟩
      · rw [hloop, bitextLoop_bit hm', pushBit_ofNat, htakes, State.advance_advance]
        rfl
      · rw [← State.advance_advance, ← Nat.sub_sub]
        exact hleft

theorem bitextLoop_add (a b : Nat) (v : Half) (m c : Byte) (s : State) :
    bitextLoop (a + b) v m c s = (bitextLoop a v m c s).bind fun r s => bitextLoop b r.1 r.2.1 r.2.2 s := by
  induction a generalizing v m c s with
  | zero => rw [Nat.zero_add]; rfl
  | succ a ih =>
    rw [Nat.add_right_comm]
    by_cases hm : m = 0
    · subst hm
      rw [bitextLoop, bitextLoop, if_pos rfl, if_pos rfl, Res.bind_assoc]
      simp only [ih]
    · rw [bitextLoop_bit hm, bitextLoop_bit hm, ih]

/-- BITEXT gives the number that the next bits write, and leaves the reader at the bit after them (R152). -/
theorem bitext_takes {n k : Nat} {l : List Bool} {s : State} (h : BitsAhead s s.jd.msk s.jd.cur k l) (hn : n ≤ l.length) :
    ∃ j ≤ k, ∃ m c, bitext n s = .ok (BitVec.ofNat 16 (bitsVal (l.take n)))
        ((s.advance j).setJd { (s.advance j).jd with msk := m, cur := c }) ∧
      BitsAhead (s.advance j) m c (k - j) (l.drop n) := by
  obtain ⟨j, hj, m, c, htakes, hleft⟩ := bitextLoop_takes 0 h hn
  refine ⟨j, hj, m, c, ?_, hleft⟩
  rw [bitext, show (0 : Half) = BitVec.ofNat 16 0 from rfl, htakes, Res.bind_ok, ← bitsVal_eq_bitsOnto]

/-- BITEXT of more bits than are ahead stops where the FetchData behind the last of them stops (R151, R155). -/
theorem bitext_stops {n k : Nat} {l : List Bool} {s t : State} {r : ResultCode} (h : BitsAhead s s.jd.msk s.jd.cur k l)
    (hn : l.length < n) (hstop : fetchData (s.advance k) = .ends r t) : bitext n s = .ends r t := by
  obtain ⟨d, rfl⟩ := Nat.exists_eq_add_of_lt hn
  obtain ⟨j, hj, m, c, htakes, hleft⟩ := bitextLoop_takes 0 h (Nat.le_refl l.length)
  rw [List.drop_length] at hleft
  obtain ⟨rfl, hk⟩ := hleft.of_nil
  obtain rfl : j = k := by omega
  have hloop : bitextLoop (l.length + d + 1) 0 s.jd.msk s.jd.cur s = .ends r t := by
    rw [Nat.add_assoc, bitextLoop_add, show (0 : Half) = BitVec.ofNat 16 0 from rfl, htakes, Res.bind_ok, bitextLoop,
      if_pos rfl, hstop, Res.bind_ends]
  rw [bitext, hloop, Res.bind_ends]

/-! The ends of the source (R150, R151, R156). -/

theorem needByte_exhausted {s : State} (h : s.jd.srcPos.toNat = s.jd.srcLen.toNat) : needByte s = .ends .inp s := by
  unfold needByte nextByte
  rw [if_neg (by omega)]
  rfl

theorem sourceBytes_add {s : State} {m n : Nat} (h : SourceReady s (m + n)) :
    sourceBytes s (m + n) = sourceBytes s m ++ sourceBytes (s.advance m) n := by
  have hpos := State.advance_srcPos h (Nat.le_add_right m n)
  unfold sourceBytes
  rw [List.range_add, List.map_append, List.map_map, hpos]
  congr 1
  apply List.map_congr_left
  intro i _
  show s.rxByte _ (s.jd.srcPos.toNat + (m + i)) = s.rxByte _ (s.jd.srcPos.toNat + m + i)
  rw [Nat.add_assoc]
  rfl

/-- The source bytes behind the first `k`. -/
theorem sourceBytes_behind {s : State} {k : Nat} {tail : List Byte} (h : SourceReady s (k + tail.length))
    (hsrc : sourceBytes s (k + tail.length) = sourceBytes s k ++ tail) : sourceBytes (s.advance k) tail.length = tail :=
  List.append_cancel_left ((sourceBytes_add h).symm.trans hsrc)

/-- A source byte that is ready is read (R150). -/
theorem needByte_sourceBytes {s : State} {b : Byte} {n : Nat} {tail : List Byte} (h : SourceReady s (n + 1))
    (hsrc : sourceBytes s (n + 1) = b :: tail) :
    needByte s = .ok b (s.advance 1) ∧ sourceBytes (s.advance 1) n = tail := by
  rw [sourceBytes_succ h] at hsrc
  injection hsrc with hb htail
  rw [needByte_ready (h.mono (Nat.le_add_left 1 n)), hb]
  exact ⟨rfl, htail⟩

section
variable {s : State} {k : Nat}

theorem fetchData_at_end (h : SourceReady s k) (hend : s.jd.srcPos.toNat + k = s.jd.srcLen.toNat) :
    fetchData (s.advance k) = .ends .inp (s.advance k) := by
  have hpos := State.advance_srcPos h (Nat.le_refl k)
  rw [fetchData, needByte_exhausted (hpos.trans hend), Res.bind_ends]

theorem fetchData_ff_at_end (h : SourceReady s (k + 1)) (hsrc : sourceBytes s (k + 1) = sourceBytes s k ++ [0xFF])
    (hend : s.jd.srcPos.toNat + k + 1 = s.jd.srcLen.toNat) :
    fetchData (s.advance k) = .ends .inp (s.advance (k + 1)) := by
  obtain ⟨hff, -⟩ := needByte_sourceBytes (n := 0) h.advance (sourceBytes_behind (tail := [0xFF]) h hsrc)
  have hpos := State.advance_srcPos h (Nat.le_refl (k + 1))
  rw [State.advance_advance] at hff
  rw [fetchData, hff, Res.bind_ok, if_pos rfl, needByte_exhausted (hpos.trans hend), Res.bind_ends]

theorem fetchData_marker {xx : Byte} (hxx : xx ≠ 0) (h : SourceReady s (k + 2))
    (hsrc : sourceBytes s (k + 2) = sourceBytes s k ++ [0xFF, xx]) :
    fetchData (s.advance k) = .ends .fmt1 (s.advance (k + 2)) := by
  have hready : SourceReady (s.advance k) (1 + 1) := h.advance
  obtain ⟨hff, htail⟩ := needByte_sourceBytes hready (sourceBytes_behind (tail := [0xFF, xx]) h hsrc)
  obtain ⟨hx, -⟩ := needByte_sourceBytes (n := 0) hready.advance htail
  rw [fetchData, hff, Res.bind_ok, if_pos rfl, hx, Res.bind_ok, if_neg hxx, State.advance_advance, State.advance_advance]

end

/-! The symbols whose raw bits stop (R155). -/

theorem exec_dcClass_stops {q : QuantTable} {ssss : BitVec 4} {s t : State} {r : ResultCode}
    (hq : s.jd.quant.get (s.jd.qtid (s.jd.cmp s.jd.blk)) = some q) (hstop : bitext ssss.toNat s = .ends r t) :
    exec (.dcClass ssss) s = .next (endCommand r t) := by
  show execDcClass ssss s = _
  rw [execDcClass, blockQuant_some hq, Res.bind_ok, hstop, Res.bind_ends, Res.finish_ends]

/-- The AC loop's index moved over a run (R175). -/
def State.ranOver (s : State) (rrrr : BitVec 4) : State := s.setJd { s.jd with coefIdx := s.jd.coefIdx + rrrr.toNat }

theorem exec_acRunSize_stops {q : QuantTable} {rrrr ssss : BitVec 4} {s t : State} {r : ResultCode}
    (hq : s.jd.quant.get (s.jd.qtid (s.jd.cmp s.jd.blk)) = some q) (hrun : s.jd.coefIdx + rrrr.toNat < 64)
    (hstop : bitext ssss.toNat (s.ranOver rrrr) = .ends r t) : exec (.acRunSize rrrr ssss) s = .next (endCommand r t) := by
  have hran : acRun rrrr s = .ok () (s.ranOver rrrr) := by
    rcases acRun_cases rrrr s with ⟨-, -, h64⟩ | ⟨hok, -⟩
    · omega
    · exact hok
  show execAcRunSize rrrr ssss s = _
  rw [execAcRunSize, hran, Res.bind_ok, blockQuant_some (s := s.ranOver rrrr) hq, Res.bind_ok, hstop, Res.bind_ends,
    Res.finish_ends]

/-! HUFFEXT. -/

theorem steps_add (a b : Nat) {s t : State} (h : steps a s = some t) : steps (a + b) s = steps b t := by
  induction a generalizing s with
  | zero =>
    cases h
    rw [Nat.zero_add]
  | succ a ih =>
    rw [Nat.add_right_comm]
    rw [steps] at h ⊢
    cases hs : step s with
    | next u => rw [hs] at h; exact ih h
    | fault f => rw [hs] at h; cases h
    | refused r => rw [hs] at h; cases h

theorem steps_one {s t : State} (h : step s = .next t) : steps 1 s = some t := by
  unfold steps
  rw [h]
  rfl

/-- A step of HUFFEXT that needs a byte gives the reader what FetchData gives (R151, R153). -/
theorem step_of_fetchEntropy {s t : State} {b : Byte} (hf : fetch s = fetchEntropy s) (hb : fetchData s = .ok b t) :
    step s = .next (feedReader b t) := by
  unfold fetchData at hb
  unfold fetchEntropy at hf
  cases h1 : needByte s with
  | ends r u => rw [h1] at hb; cases hb
  | fault f => rw [h1] at hb; cases hb
  | ok b1 u =>
    rw [h1, Res.bind_ok] at hb hf
    by_cases hff : b1 = 0xFF
    · subst hff
      rw [if_pos rfl] at hb hf
      cases h2 : needByte u with
      | ends r v => rw [h2] at hb; cases hb
      | fault f => rw [h2] at hb; cases hb
      | ok c v =>
        rw [h2, Res.bind_ok] at hb hf
        by_cases hc : c = 0
        · subst hc
          cases hb
          exact step_of_run hf
        · rw [if_neg hc] at hb
          cases hb
    · rw [if_neg hff] at hb hf
      cases hb
      exact step_of_moved hf

/-- The place of a symbol extracted from a table of class `cls` (R171, R175). -/
def symbolMode (cls : Bool) (b : Byte) : JdMode := if cls then .symbolAc b else .symbolDc b

/-- JD moves next, inside a HUFFEXT on the table `t` of class `cls` (R153). -/
structure Extracting (s : State) (cls : Bool) (t : HuffTable) : Prop where
  schedule : s.schedule = []
  mode : s.jd.mode = if cls then .huffAc else .huffDc
  table : s.jd.huff.get (s.jd.tableId s.jd.blk) cls = some t

theorem Extracting.fetch {s : State} {cls : Bool} {t : HuffTable} (h : Extracting s cls t) :
    fetch s = huffStep cls (symbolMode cls) s := by
  have hready : jdReady s = true := by
    unfold jdReady
    rw [h.mode]
    cases cls <;> rfl
  have hturn : s.turn = (.jd, s) := by
    unfold State.turn
    rw [h.schedule, hready]
    rfl
  rw [Machine.fetch, hturn]
  show jdFetch s = _
  unfold jdFetch
  rw [h.mode]
  cases cls <;> rfl

theorem Extracting.step_byte {s : State} {cls : Bool} {t : HuffTable} (h : Extracting s cls t) (hm : s.jd.hx.m = 0) {b : Byte}
    {u : State} (hb : fetchData s = .ok b u) : step s = .next (feedReader b u) :=
  step_of_fetchEntropy (h.fetch.trans (if_pos hm)) hb

theorem Extracting.step_bit {s : State} {cls : Bool} {t : HuffTable} (h : Extracting s cls t) (hm : s.jd.hx.m ≠ 0) :
    step s = (huffBit t (symbolMode cls) s).finish := by
  have hf : Machine.fetch s = (huffBit t (symbolMode cls) s).moved := by
    rw [h.fetch, huffStep, if_neg hm, h.table]
  cases hbit : huffBit t (symbolMode cls) s with
  | ok _ u => exact step_of_moved (hf.trans (by rw [hbit]; rfl))
  | ends r u => exact step_of_moved (hf.trans (by rw [hbit]; rfl))
  | fault f => exact step_of_fault (hf.trans (by rw [hbit]; rfl))

/-- A HUFFEXT begun at `s` that has read `j` source bytes and taken `i` bits of `l`, with mask `m` over byte `c` (R153). -/
def State.reading (s : State) (t : HuffTable) (l : List Bool) (i j : Nat) (m c : Byte) : State :=
  (s.advance j).setJd { (s.advance j).jd with
    hx := ⟨BitVec.ofNat 16 (bitsVal (l.take i)), m, c, i, codeCount (t.bits.take i)⟩ }

section
variable {s : State} {cls : Bool} {t : HuffTable} {k i : Nat} {l : List Bool}

theorem Extracting.reading (h : Extracting s cls t) (l : List Bool) (i j : Nat) (m c : Byte) :
    Extracting (s.reading t l i j m c) cls t :=
  ⟨h.schedule, h.mode, h.table⟩

/-- A HUFFEXT with a bit ahead has it under its mask, at once or after one step. -/
theorem Extracting.fill (h : Extracting s cls t) {j : Nat} {m c : Byte} (hj : j ≤ k)
    (hahead : BitsAhead (s.advance j) m c (k - j) (l.drop i)) (hi : i < l.length) :
    ∃ N, ∃ j' ≤ k, ∃ m' c', m' ≠ 0 ∧ steps N (s.reading t l i j m c) = some (s.reading t l i j' m' c') ∧
      BitsAhead (s.advance j') m' c' (k - j') (l.drop i) := by
  rw [List.drop_eq_getElem_cons hi] at hahead ⊢
  have hreading : BitsAhead (s.reading t l i j m c) m c (k - j) (l[i] :: l.drop (i + 1)) :=
    ⟨hahead.mask, hahead.ready, hahead.bits⟩
  obtain ⟨d, hd, m', c', hm', hfilled, hfill⟩ := hreading.fill
  have hmoved : BitsAhead (s.advance (j + d)) m' c' (k - (j + d)) (l[i] :: l.drop (i + 1)) := by
    rw [← State.advance_advance, ← Nat.sub_sub]
    exact ⟨hfilled.mask, hfilled.ready, hfilled.bits⟩
  rcases hfill with ⟨rfl, rfl, rfl⟩ | ⟨rfl, rfl, hfetch⟩
  · exact ⟨0, j, hj, m', c', hm', rfl, hmoved⟩
  · refine ⟨1, j + d, by omega, 0x80, c', hm', steps_one ?_, hmoved⟩
    rw [(h.reading l i j 0 c).step_byte rfl hfetch, State.reading, State.reading, ← State.advance_advance]
    rfl

/-- The bit under the mask makes the next prefix (R153). -/
theorem pushBit_take {m c : Byte} {j : Nat} (hahead : BitsAhead (s.advance j) m c (k - j) (l.drop i)) (hm : m ≠ 0)
    (hi : i < l.length) :
    pushBit (BitVec.ofNat 16 (bitsVal (l.take i))) m c = BitVec.ofNat 16 (bitsVal (l.take (i + 1))) ∧
      BitsAhead (s.advance j) (m >>> 1) c (k - j) (l.drop (i + 1)) := by
  obtain ⟨rest, hcons, hrest⟩ := hahead.next hm
  rw [List.drop_eq_getElem_cons hi] at hcons
  injection hcons with hbit htail
  rw [← htail] at hrest
  rw [pushBit_ofNat, ← hbit, ← bitsVal_concat, List.take_append_getElem hi]
  exact ⟨rfl, hrest⟩

end

/-! One length class of HUFFEXT (R153), where the index stands behind the codes of the shorter lengths. -/

section
variable {s : State} {t : HuffTable} {x v : Half} {m c : Byte} {i : Nat} (found : Byte → JdMode)
  (hx : s.jd.hx = ⟨x, m, c, i, codeCount (t.bits.take i)⟩) (hv : pushBit x m c = v)
include hx hv

theorem huffBit_found {b : Byte} (hb : t.find i v = some b) :
    huffBit t found s = .ok () (s.setJd { s.jd with cur := c, msk := m >>> 1, mode := found b }) := by
  unfold HuffTable.find at hb
  simp only [huffBit, hx, hv, hb]

theorem huffBit_longer (hnone : t.find i v = none) (hi : i < 15) :
    huffBit t found s = .ok () (s.setJd { s.jd with hx := ⟨v, m >>> 1, c, i + 1, codeCount (t.bits.take (i + 1))⟩ }) := by
  unfold HuffTable.find at hnone
  simp only [huffBit, hx, hv, hnone, if_neg (Nat.not_le.mpr hi), codeCount_take_succ]

theorem huffBit_none (hnone : t.find i v = none) (hi : 15 ≤ i) : huffBit t found s = .ends .fmt1 s := by
  unfold HuffTable.find at hnone
  simp only [huffBit, hx, hv, hnone, if_pos hi]

end

section
variable {s : State} {cls : Bool} {t : HuffTable} {k : Nat} {l : List Bool}

/-- Where no shorter prefix is a code, steps of JD lead to the next bit under the mask (R153). -/
theorem Extracting.reaches (h : Extracting s cls t) (hx : s.jd.hx = s.jd.newReader)
    (hahead : BitsAhead s s.jd.msk s.jd.cur k l) (i : Nat) (h16 : i < 16) (hi : i < l.length)
    (hnone : ∀ i' < i, t.find i' (BitVec.ofNat 16 (bitsVal (l.take (i' + 1)))) = none) :
    ∃ N, ∃ j ≤ k, ∃ m c, m ≠ 0 ∧ steps N s = some (s.reading t l i j m c) ∧
      BitsAhead (s.advance j) m c (k - j) (l.drop i) := by
  induction i with
  | zero =>
    have hstart : s.reading t l 0 0 s.jd.msk s.jd.cur = s := by
      unfold State.reading
      rw [State.advance_zero]
      exact congrArg (fun r => s.setJd { s.jd with hx := r }) hx.symm
    have hahead0 : BitsAhead (s.advance 0) s.jd.msk s.jd.cur (k - 0) (l.drop 0) := by
      rw [State.advance_zero]
      exact hahead
    obtain ⟨N, j, hj, m, c, hm, hsteps, hfilled⟩ := h.fill (Nat.zero_le k) hahead0 hi
    rw [hstart] at hsteps
    exact ⟨N, j, hj, m, c, hm, hsteps, hfilled⟩
  | succ i ih =>
    obtain ⟨N, j, hj, m, c, hm, hsteps, hbit⟩ :=
      ih (by omega) (by omega) fun i' hi' => hnone i' (by omega)
    obtain ⟨hv, hrest⟩ := pushBit_take hbit hm (Nat.lt_of_succ_lt hi)
    have hstep : step (s.reading t l i j m c) = .next (s.reading t l (i + 1) j (m >>> 1) c) := by
      rw [(h.reading l i j m c).step_bit hm,
        huffBit_longer _ rfl hv (hnone i (Nat.lt_succ_self i)) (by omega)]
      rfl
    obtain ⟨M, j', hj', m', c', hm', hsteps', hbit'⟩ := h.fill hj hrest hi
    refine ⟨N + (1 + M), j', hj', m', c', hm', ?_, hbit'⟩
    rw [steps_add N _ hsteps, steps_add 1 M (steps_one hstep), hsteps']

end

end Sys2Proof.Machine

namespace Sys2Proof.Proofs

open Sys2Proof.Machine

/-- Settles O30: the loop takes bit after bit; with too few of them it takes them all, and the FetchData behind them stops it. -/
theorem bitextTakesNextBits : Obligations.BitextTakesNextBits := by
  constructor
  · intro s n k l hm hready hl hn _
    obtain ⟨j, hj, m, c, htakes, hleft⟩ := bitext_takes ⟨hm, hready, hl⟩ hn
    exact ⟨j, m, c, hj, hleft.mask, htakes, hleft.bits⟩
  · intro s n k l hm hready hl hlt _ stops
    have hstops : ∀ {r j}, (∀ i, let u := s.setJd { s.jd with coefIdx := i }
        fetchData (u.advance k) = .ends r (u.advance j)) → stops r j := by
      intro r j hstop
      have hbits : bitext n s = .ends r (s.advance j) := bitext_stops ⟨hm, hready, hl⟩ hlt (hstop s.jd.coefIdx)
      refine ⟨hbits, fun q ssss hq hssss => ?_⟩
      subst hssss
      exact ⟨exec_dcClass_stops hq hbits, fun rrrr hrun =>
        exec_acRunSize_stops hq hrun (bitext_stops (s := s.ranOver rrrr) ⟨hm, hready, hl⟩ hlt (hstop _))⟩
    exact ⟨fun hend => hstops fun i => fetchData_at_end (s := s.setJd { s.jd with coefIdx := i }) hready hend,
      fun h1 hsrc hend => hstops fun i => fetchData_ff_at_end (s := s.setJd { s.jd with coefIdx := i }) h1 hsrc hend,
      fun xx hxx h2 hsrc => hstops fun i => fetchData_marker (s := s.setJd { s.jd with coefIdx := i }) hxx h2 hsrc⟩

/-- Settles O31: steps of JD lead to each next bit while no prefix is a code, and the last bit ends the search. -/
theorem huffextFindsSymbol : Obligations.HuffextFindsSymbol := by
  intro s cls t k l hsched hmode hx htable hm hready hl
  have hext : Extracting s cls t := ⟨hsched, hmode, htable⟩
  have hahead : BitsAhead s s.jd.msk s.jd.cur k l := ⟨hm, hready, hl⟩
  constructor
  · intro n b h16 hn hnone hfind
    obtain ⟨N, j, hj, m, c, hm0, hsteps, hbit⟩ := hext.reaches hx hahead n h16 hn hnone
    obtain ⟨hv, hrest⟩ := pushBit_take hbit hm0 hn
    have hstep := (hext.reading l n j m c).step_bit hm0
    rw [huffBit_found _ rfl hv hfind, Res.finish_ok] at hstep
    refine ⟨N + 1, j, m >>> 1, c, (s.reading t l n j m c).jd.hx, hj, ?_, hrest.bits⟩
    rw [steps_add N 1 hsteps, steps_one hstep]
    rfl
  · intro h16 hnone
    obtain ⟨N, j, hj, m, c, hm0, hsteps, hbit⟩ :=
      hext.reaches hx hahead 15 (by omega) (by omega) fun i hi => hnone i (by omega)
    obtain ⟨hv, -⟩ := pushBit_take hbit hm0 (by omega)
    have hstep := (hext.reading l 15 j m c).step_bit hm0
    rw [huffBit_none _ rfl hv (hnone 15 (by omega)) (Nat.le_refl 15), Res.finish_ends] at hstep
    refine ⟨N + 1, j, (s.reading t l 15 j m c).jd.hx, hj, ?_⟩
    rw [steps_add N 1 hsteps, steps_one hstep]
    rfl

end Sys2Proof.Proofs
end

section
/-! PROOFS of the statements about the instruction that JD reads from its source or extracts (R122, R123, R151, R154, R171,
R175), and about source bytes that are none or too few (R302, R303). -/

namespace Sys2Proof.Machine

/-! Too few source bytes (R150). -/

/-- Where the source ends after `k` bytes, a read of more of them takes those and raises INP. -/
theorem readBytes_exhausted {s : State} {k n : Nat} (h : SourceReady s k) (hend : s.jd.srcPos.toNat + k = s.jd.srcLen.toNat)
    (hk : k < n) : readBytes n s = .ends .inp (s.advance k) := by
  induction k generalizing s n with
  | zero =>
    obtain ⟨n, rfl⟩ := Nat.exists_eq_add_of_lt hk
    rw [readBytes, needByte_exhausted hend, Res.bind_ends, State.advance_zero]
  | succ k ih =>
    obtain ⟨n, rfl⟩ := Nat.exists_eq_add_of_lt hk
    have hready : SourceReady (s.advance 1) k := SourceReady.advance (by rwa [Nat.add_comm])
    have hpos : (s.advance 1).jd.srcPos.toNat = s.jd.srcPos.toNat + 1 := State.advance_srcPos h (Nat.le_add_left 1 k)
    have hend' : (s.advance 1).jd.srcPos.toNat + k = s.jd.srcLen.toNat := by omega
    rw [readBytes, needByte_ready (h.mono (Nat.le_add_left 1 k)), Res.bind_ok, ih hready hend' (by omega), Res.bind_ends,
      State.advance_advance, Nat.add_comm 1 k]

/-- Skipping bytes is reading them (R133). -/
theorem skipBytes_eq_readBytes (n : Nat) (s : State) : skipBytes n s = (readBytes n s).bind fun _ s => .ok () s := by
  induction n generalizing s with
  | zero => rfl
  | succ n ih => simp only [skipBytes, readBytes, ih, Res.bind_assoc, Res.bind_ok]

/-! What JD fetches where it reads its source. -/

/-- In JD's turn JD fetches. -/
theorem fetch_jd {s u : State} (hturn : s.turn = (.jd, u)) : fetch s = jdFetch u := by
  unfold fetch
  rw [hturn]
  rfl

section
variable {p : Port} {n : Nat} {s : State}

theorem fetchMarker_decoded {i : Instr} (h : SourceReady s n) (hd : decode p (sourceBytes s n) = .ok i) :
    fetchMarker p n s = .run i (s.advance n) := by
  simp only [fetchMarker, readBytes_ready h, Res.bind_ok, hd]
  rfl

theorem fetchMarker_undecoded {e : Reject} (h : SourceReady s n) (hd : decode p (sourceBytes s n) = .error e) :
    fetchMarker p n s = .moved (endCommand .fmt1 (s.advance n)) := by
  simp only [fetchMarker, readBytes_ready h, Res.bind_ok, hd]
  rfl

theorem fetchMarker_exhausted {k : Nat} (h : SourceReady s k) (hend : s.jd.srcPos.toNat + k = s.jd.srcLen.toNat) (hk : k < n) :
    fetchMarker p n s = .moved (endCommand .inp (s.advance k)) := by
  rw [fetchMarker, readBytes_exhausted h hend hk]
  rfl

end

/-- The places where JD reads `n` source bytes and decodes them at port `p`: the SOI check, the marker loop head, and before a
restart marker (R122, R123, R154). -/
def JdMode.readsMarker (m : JdMode) (p : Port) (n : Nat) : Prop :=
  (m = .soi ∧ p = .soi ∧ n = 2) ∨ (m = .marker ∧ p = .header ∧ n = 4) ∨ (m = .restart ∧ p = .restart ∧ n = 2)

theorem jdFetch_readsMarker {s : State} {p : Port} {n : Nat} (h : s.jd.mode.readsMarker p n) :
    jdFetch s = fetchMarker p n s := by
  unfold jdFetch
  rcases h with ⟨hm, rfl, rfl⟩ | ⟨hm, rfl, rfl⟩ | ⟨hm, rfl, rfl⟩ <;> rw [hm]

/-- In JD's turn, source bytes that decode are an instruction that runs behind them. -/
theorem step_readsMarker {s u : State} {p : Port} {n : Nat} {i : Instr} (hturn : s.turn = (.jd, u))
    (hm : u.jd.mode.readsMarker p n) (h : SourceReady u n) (hd : decode p (sourceBytes u n) = .ok i) :
    step s = exec i (u.advance n) :=
  step_of_run ((fetch_jd hturn).trans ((jdFetch_readsMarker hm).trans (fetchMarker_decoded h hd)))

/-- Only a byte FF begins a pair that FetchData decodes (R151). -/
theorem decode_entropy_ff {b c : Byte} {i : Instr} (h : decode .entropy [b, c] = .ok i) : b = 0xFF := by
  simp only [decode] at h
  split at h
  · assumption
  · cases h

theorem fetchEntropy_decoded {s : State} {i : Instr} (h : SourceReady s 2) (hd : decode .entropy (sourceBytes s 2) = .ok i) :
    fetchEntropy s = .run i (s.advance 2) := by
  obtain ⟨b, c, hbytes⟩ : ∃ b c, sourceBytes s 2 = [b, c] := List.length_eq_two.mp (sourceBytes_length s 2)
  obtain ⟨hb, htail⟩ := needByte_sourceBytes h hbytes
  obtain ⟨hc, -⟩ := needByte_sourceBytes (n := 0) (SourceReady.advance h) htail
  rw [hbytes] at hd
  rw [fetchEntropy, hb, Res.bind_ok, if_pos (decode_entropy_ff hd), hc, Res.bind_ok, hd, State.advance_advance]
  rfl

/-- A HUFFEXT that needs a byte fetches one (R153). -/
theorem jdFetch_needsByte {s : State} (hm : s.jd.mode = .huffDc ∨ s.jd.mode = .huffAc) (hx : s.jd.hx.m = 0) :
    jdFetch s = fetchEntropy s := by
  unfold jdFetch
  rcases hm with hm | hm <;> rw [hm] <;> exact if_pos hx

theorem fetchSymbol_decoded {p : Port} {b : Byte} {i : Instr} (s : State) (hd : decode p [b] = .ok i) :
    fetchSymbol p b s = .run i s := by
  unfold fetchSymbol
  rw [hd]

end Sys2Proof.Machine

namespace Sys2Proof.Proofs

open Sys2Proof.Machine

/-- Settles O6: JD fetches what its bytes or its symbol decode to, and the step runs it. -/
theorem stepRunsSourceInstruction : Obligations.StepRunsSourceInstruction := by
  intro s u i hturn
  refine ⟨fun hm => step_readsMarker hturn (.inl ⟨hm, rfl, rfl⟩),
    fun hm => step_readsMarker hturn (.inr (.inl ⟨hm, rfl, rfl⟩)),
    fun hm => step_readsMarker hturn (.inr (.inr ⟨hm, rfl, rfl⟩)),
    fun hm hx hready hd => ?_, fun b hm hd => ?_, fun b hm hd => ?_⟩
  · exact step_of_run ((fetch_jd hturn).trans ((jdFetch_needsByte hm hx).trans (fetchEntropy_decoded hready hd)))
  · refine step_of_run ((fetch_jd hturn).trans ?_)
    rw [jdFetch, hm]
    exact fetchSymbol_decoded u hd
  · refine step_of_run ((fetch_jd hturn).trans ?_)
    rw [jdFetch, hm]
    exact fetchSymbol_decoded u hd

/-- Settles O7: bytes that do not decode are read before FMT1, and the bytes that are left are read before INP. -/
theorem sourceBytesRejected : Obligations.SourceBytesRejected := by
  intro s u p n hturn hm
  have hfetch : fetch s = fetchMarker p n u := (fetch_jd hturn).trans (jdFetch_readsMarker hm)
  constructor
  · intro e hready hd
    exact step_of_moved (hfetch.trans (fetchMarker_undecoded hready hd))
  · intro k hk hready hend
    exact step_of_moved (hfetch.trans (fetchMarker_exhausted hready hend hk))

end Sys2Proof.Proofs
end

section
/-! PROOFS of the statements about SOI and the marker segments that hold no table (R122 to R126, R130 to R133): the checks of Lseg
and of the load, SOF0, DRI and SOS check by check, the rejected and the skipped segments. -/

namespace Sys2Proof.Machine

/-! The checks of a segment before its own rule (R123, R124, R132). -/

section
variable {lseg : Half} {s : State} {k : Nat}

theorem withSegment_empty (body : Nat → State → Res Unit) (s : State) (h : lseg.toNat ≤ 2) :
    withSegment lseg body s = .ends .fmt1 s := if_pos h

theorem withSegment_nonempty (body : Nat → State → Res Unit) (s : State) (h : 2 < lseg.toNat) :
    withSegment lseg body s = body (lseg.toNat - 2) s := if_neg (Nat.not_le.mpr h)

theorem withBody_oversized (body : List Byte → State → Res Unit) (s : State) (h : 514 < lseg.toNat) :
    withBody lseg body s = .ends .mem2 s := by
  have hlen : Config.inbufSize < lseg.toNat - 2 := by
    unfold Config.inbufSize
    omega
  rw [withBody, withSegment_nonempty _ s (by omega), if_pos hlen]

/-- A segment load that the source ends (R124). -/
theorem withBody_exhausted (body : List Byte → State → Res Unit) (h : SourceReady s k)
    (hend : s.jd.srcPos.toNat + k = s.jd.srcLen.toNat) (hk : k + 2 < lseg.toNat) (hm : lseg.toNat ≤ 514) :
    withBody lseg body s = .ends .inp (s.advance k) := by
  have hlen : ¬ Config.inbufSize < lseg.toNat - 2 := by
    unfold Config.inbufSize
    omega
  rw [withBody, withSegment_nonempty _ s (by omega), if_neg hlen,
    readBytes_exhausted h hend (by omega), Res.bind_ends]

end

/-! The markers by what they do with their segment. -/

/-- The markers whose segment is loaded (R124). -/
def loadedMarkers (lseg : Half) : List Instr := [.mkSof0 lseg, .mkDht lseg, .mkDqt lseg, .mkDri lseg, .mkSos lseg]

/-- The thirteen rejected markers (R132). -/
def rejectedMarkers (lseg : Half) : List Instr :=
  [.mkSof1Reject lseg, .mkSof2Reject lseg, .mkSof3Reject lseg, .mkSof5Reject lseg, .mkSof6Reject lseg, .mkSof7Reject lseg,
    .mkSof9Reject lseg, .mkSof10Reject lseg, .mkSof11Reject lseg, .mkSof13Reject lseg, .mkSof14Reject lseg,
    .mkSof15Reject lseg, .mkEoiReject lseg]

theorem exec_loadedMarker {lseg : Half} (s : State) :
    ∀ i ∈ loadedMarkers lseg, ∃ body, exec i s = (withBody lseg body s).finish := by
  simp only [loadedMarkers, List.forall_mem_cons]
  exact ⟨⟨sof0Body, rfl⟩, ⟨dhtBody, rfl⟩, ⟨dqtBody, rfl⟩, ⟨driBody, rfl⟩, ⟨sosBody, rfl⟩, nofun⟩

theorem exec_rejectedMarker {lseg : Half} (s : State) :
    ∀ i ∈ rejectedMarkers lseg, exec i s = (rejectSegment lseg s).finish := by
  simp only [rejectedMarkers, List.forall_mem_cons]
  exact ⟨rfl, rfl, rfl, rfl, rfl, rfl, rfl, rfl, rfl, rfl, rfl, rfl, rfl, nofun⟩

/-- The skip of a segment of `len` bytes (R133). -/
def skipSegment (len : Nat) (s : State) : Res Unit := (skipBytes len s).bind fun _ s => nextMarker s

theorem exec_mkOther (c : Byte) (lseg : Half) (s : State) :
    exec (.mkOther c lseg) s = (withSegment lseg skipSegment s).finish := rfl

theorem skipSegment_exhausted {s : State} {k len : Nat} (h : SourceReady s k)
    (hend : s.jd.srcPos.toNat + k = s.jd.srcLen.toNat) (hk : k < len) : skipSegment len s = .ends .inp (s.advance k) := by
  rw [skipSegment, skipBytes_eq_readBytes, readBytes_exhausted h hend hk, Res.bind_ends, Res.bind_ends]

theorem skipSegment_ready {s : State} {len : Nat} (h : SourceReady s len) :
    skipSegment len s = .ok () ((s.advance len).setJd { (s.advance len).jd with mode := .marker }) := by
  rw [skipSegment, skipBytes_ready h, Res.bind_ok, nextMarker]

section
variable {lseg : Half} {s : State} {len : Nat}

theorem exec_mkSof0 (hl : lseg.toNat = len + 2) (h0 : 0 < len) (hm : len ≤ 512) (hready : SourceReady s len) :
    exec (.mkSof0 lseg) s = (sof0Body (sourceBytes s len) (s.advance len)).finish :=
  congrArg Res.finish (withBody_ready sof0Body hl h0 hm hready)

theorem exec_mkDri (hl : lseg.toNat = len + 2) (h0 : 0 < len) (hm : len ≤ 512) (hready : SourceReady s len) :
    exec (.mkDri lseg) s = (driBody (sourceBytes s len) (s.advance len)).finish :=
  congrArg Res.finish (withBody_ready driBody hl h0 hm hready)

theorem exec_mkSos (hl : lseg.toNat = len + 2) (h0 : 0 < len) (hm : len ≤ 512) (hready : SourceReady s len) :
    exec (.mkSos lseg) s = (sosBody (sourceBytes s len) (s.advance len)).finish :=
  congrArg Res.finish (withBody_ready sosBody hl h0 hm hready)

end

/-! SOF0 from one check to the next (R125). Each part begins where the fields before its checks have been written. -/

/-- The checks of Cr, and the marker loop where they pass. -/
def sof0Cr (seg : List Byte) (s : State) : Res Unit :=
  if seg.getD 13 0 ≠ 0x11 ∨ 3 < (seg.getD 14 0).toNat then .ends .fmt3 s
  else nextMarker (s.setJd { s.jd with qtid2 := (seg.getD 14 0).extractLsb' 0 2 })

/-- The checks of Cb, and what follows where they pass. -/
def sof0Cb (seg : List Byte) (s : State) : Res Unit :=
  if seg.getD 10 0 ≠ 0x11 ∨ 3 < (seg.getD 11 0).toNat then .ends .fmt3 s
  else sof0Cr seg (s.setJd { s.jd with qtid1 := (seg.getD 11 0).extractLsb' 0 2 })

/-- The check of the table id of Y, and what follows where it passes. -/
def sof0Y (seg : List Byte) (s : State) : Res Unit :=
  if 3 < (seg.getD 8 0).toNat then .ends .fmt3 s
  else sof0Cb seg (s.setJd { s.jd with qtid0 := (seg.getD 8 0).extractLsb' 0 2 })

/-- The checks of the number of components and of the sampling, and what follows where they pass. -/
def sof0Sampling (seg : List Byte) (s : State) : Res Unit :=
  if seg.getD 5 0 ≠ 3 then .ends .fmt3 s
  else if seg.getD 7 0 ≠ 0x11 ∧ seg.getD 7 0 ≠ 0x21 ∧ seg.getD 7 0 ≠ 0x22 then .ends .fmt3 s
  else sof0Y seg (s.setJd { s.jd with msx := (seg.getD 7 0).extractLsb' 4 2, msy := (seg.getD 7 0).extractLsb' 0 2 })

theorem sof0Body_eq (seg : List Byte) (s : State) : sof0Body seg s =
    if seg.length < 15 then .ends .fmt1 s
    else sof0Sampling seg (s.setJd { s.jd with height := half seg 1, width := half seg 3 }) := rfl

/-- The high and the low field of a byte as numbers: the sampling factors (R125). -/
theorem extractLsb'_factors (b : Byte) :
    b.extractLsb' 4 2 = BitVec.ofNat 2 (b.toNat / 16) ∧ b.extractLsb' 0 2 = BitVec.ofNat 2 (b.toNat % 16) := by
  constructor
  · exact congrArg (BitVec.ofNat 2) (Nat.shiftRight_eq_div_pow _ 4)
  · apply BitVec.eq_of_toNat_eq
    simp only [BitVec.extractLsb'_toNat, Nat.shiftRight_zero, BitVec.toNat_ofNat]
    omega

theorem sof0Sampling_badSampling {seg : List Byte} {s : State} (h5 : seg.getD 5 0 = 3)
    (h7 : ¬ (seg.getD 7 0 = 0x11 ∨ seg.getD 7 0 = 0x21 ∨ seg.getD 7 0 = 0x22)) : sof0Sampling seg s = .ends .fmt3 s := by
  rw [sof0Sampling, if_neg (not_not.mpr h5), if_pos (by simpa only [not_or] using h7)]

theorem sof0Sampling_ok {seg : List Byte} {s : State} (h5 : seg.getD 5 0 = 3)
    (h7 : seg.getD 7 0 = 0x11 ∨ seg.getD 7 0 = 0x21 ∨ seg.getD 7 0 = 0x22) :
    sof0Sampling seg s = sof0Y seg (s.setJd { s.jd with
      msx := BitVec.ofNat 2 ((seg.getD 7 0).toNat / 16), msy := BitVec.ofNat 2 ((seg.getD 7 0).toNat % 16) }) := by
  obtain ⟨hmsx, hmsy⟩ := extractLsb'_factors (seg.getD 7 0)
  rw [sof0Sampling, if_neg (not_not.mpr h5), if_neg (by simpa only [← not_or, not_not] using h7), hmsx, hmsy]

/-! SOS (R130, R131). -/

/-- What the checks of component `i` of a scan answer. -/
def scanAnswer (seg : List Byte) (j : Jd) (i : Nat) : Option ResultCode := scanComponent i (seg.getD (2 + 2 * i) 0) j

section
variable {seg : List Byte} {j : Jd}

theorem scanAnswer_ok {i : Nat} (h : ComponentOk seg j i) : scanAnswer seg j i = none := by
  obtain ⟨hsel, hhuff, hquant⟩ := h
  have hsel' : ¬ (seg.getD (2 + 2 * i) 0 ≠ 0x00 ∧ seg.getD (2 + 2 * i) 0 ≠ 0x11) := by
    rwa [not_and_or, not_not, not_not]
  rw [scanAnswer, scanComponent, if_neg hsel', if_neg (not_not.mpr hhuff), if_neg (not_not.mpr hquant)]

theorem scanAnswer_badSelector {i : Nat} (h0 : seg.getD (2 + 2 * i) 0 ≠ 0x00) (h1 : seg.getD (2 + 2 * i) 0 ≠ 0x11) :
    scanAnswer seg j i = some .fmt3 := by
  rw [scanAnswer, scanComponent, if_pos ⟨h0, h1⟩]

theorem scanAnswer_noTable {i : Nat} (hsel : seg.getD (2 + 2 * i) 0 = 0x00 ∨ seg.getD (2 + 2 * i) 0 = 0x11)
    (h : ¬ ComponentOk seg j i) : scanAnswer seg j i = some .fmt1 := by
  rcases scanComponent_cases i (seg.getD (2 + 2 * i) 0) j with ⟨-, h0, h1⟩ | ⟨hfmt1, -⟩ | ⟨-, -, hdc, hac, hquant⟩
  · exact (hsel.elim h0 h1).elim
  · exact hfmt1
  · exact absurd ⟨hsel, ⟨hdc, hac⟩, hquant⟩ h

theorem sosChecks_noSize (h : j.width = 0 ∨ j.height = 0) : sosChecks seg j = some .fmt1 := if_pos h

section
variable (hsize : ¬ (j.width = 0 ∨ j.height = 0))
include hsize

theorem sosChecks_short (h : seg.length < 7) : sosChecks seg j = some .fmt1 := by
  rw [sosChecks, if_neg hsize, if_pos h]

variable (hlen : 7 ≤ seg.length)
include hlen

theorem sosChecks_badCount (h : seg.getD 0 0 ≠ 3) : sosChecks seg j = some .fmt3 := by
  rw [sosChecks, if_neg hsize, if_neg (Nat.not_lt.mpr hlen), if_pos h]

variable (hcount : seg.getD 0 0 = 3)
include hcount

/-- The first component whose checks answer a code decides; then the sampling does. -/
theorem sosChecks_components : sosChecks seg j =
    (scanAnswer seg j 0).or ((scanAnswer seg j 1).or ((scanAnswer seg j 2).or (if j.nby = 0 then some .fmt1 else none))) := by
  rw [sosChecks, if_neg hsize, if_neg (Nat.not_lt.mpr hlen), if_neg (not_not.mpr hcount)]
  rw [show scanComponent 0 (seg.getD 2 0) j = scanAnswer seg j 0 from rfl,
    show scanComponent 1 (seg.getD 4 0) j = scanAnswer seg j 1 from rfl,
    show scanComponent 2 (seg.getD 6 0) j = scanAnswer seg j 2 from rfl]
  cases scanAnswer seg j 0 with
  | some r => rfl
  | none => cases scanAnswer seg j 1 with
    | some r => rfl
    | none => cases scanAnswer seg j 2 <;> rfl

theorem sosChecks_component {i : Nat} (hi : i < 3) (hok : ∀ k < i, ComponentOk seg j k) {r : ResultCode}
    (h : scanAnswer seg j i = some r) : sosChecks seg j = some r := by
  have hnone : ∀ k < i, scanAnswer seg j k = none := fun k hk => scanAnswer_ok (hok k hk)
  rw [sosChecks_components hsize hlen hcount]
  match i with
  | 0 => rw [h, Option.some_or]
  | 1 => rw [hnone 0 (by omega), h, Option.none_or, Option.some_or]
  | 2 => rw [hnone 0 (by omega), hnone 1 (by omega), h, Option.none_or, Option.none_or, Option.some_or]

theorem sosChecks_sampling (hok : ∀ k < 3, ComponentOk seg j k) :
    sosChecks seg j = if j.nby = 0 then some .fmt1 else none := by
  have hnone : ∀ k < 3, scanAnswer seg j k = none := fun k hk => scanAnswer_ok (hok k hk)
  rw [sosChecks_components hsize hlen hcount, hnone 0 (by omega), hnone 1 (by omega), hnone 2 (by omega), Option.none_or,
    Option.none_or, Option.none_or]

end

end

theorem sosBody_fails {seg : List Byte} {s : State} {r : ResultCode} (h : sosChecks seg s.jd = some r) :
    sosBody seg s = .ends r s := by
  rw [sosBody, h]

theorem sosBody_passes {seg : List Byte} {s : State} (h : sosChecks seg s.jd = none) :
    sosBody seg s = .ends .ok (s.setJd { s.jd with msk := 0 }) := by
  rw [sosBody, h]

/-- POS has no part in the checks of SOS. -/
theorem sosChecks_advance (seg : List Byte) (s : State) (n : Nat) : sosChecks seg (s.advance n).jd = sosChecks seg s.jd := rfl

end Sys2Proof.Machine

namespace Sys2Proof.Proofs

open Sys2Proof.Machine

/-- Settles O19: a rejected marker's segment is not read. -/
theorem soiAndRejectedMarkers : Obligations.SoiAndRejectedMarkers := by
  refine fun lseg s => ⟨rfl, fun h i hi => ?_⟩
  rw [exec_rejectedMarker s i hi, rejectSegment, withSegment_nonempty _ s h, Res.finish_ends]

/-- Settles O20: each marker loads its segment, rejects it or skips it, and each of these checks Lseg first. -/
theorem segmentChecks : Obligations.SegmentChecks := by
  intro lseg c s loaded
  have hloaded : ∀ i ∈ loaded, ∃ body, exec i s = (withBody lseg body s).finish := exec_loadedMarker s
  refine ⟨fun h2 i hi => ?_, fun h514 i hi => ?_, fun k hready hend hk => ⟨?_, fun hm i hi => ?_⟩⟩
  · have hcases : i ∈ loaded ∨ i ∈ rejectedMarkers lseg ∨ i = .mkOther c lseg := by
      rw [← List.mem_singleton, ← List.mem_append, ← List.mem_append]
      exact hi
    rcases hcases with hi | hi | rfl
    · obtain ⟨body, hbody⟩ := hloaded i hi
      rw [hbody, withBody, withSegment_empty _ s h2, Res.finish_ends]
    · rw [exec_rejectedMarker s i hi, rejectSegment, withSegment_empty _ s h2, Res.finish_ends]
    · rw [exec_mkOther, withSegment_empty _ s h2, Res.finish_ends]
  · obtain ⟨body, hbody⟩ := hloaded i hi
    rw [hbody, withBody_oversized body s h514, Res.finish_ends]
  · rw [exec_mkOther, withSegment_nonempty _ s (by omega), skipSegment_exhausted hready hend (by omega), Res.finish_ends]
  · obtain ⟨body, hbody⟩ := hloaded i hi
    rw [hbody, withBody_exhausted body hready hend hk hm, Res.finish_ends]

/-- Settles O21: SOF0 check by check, on the fields written so far. -/
theorem sof0Segment : Obligations.Sof0Segment := by
  intro lseg s len hl h0 hm hready seg s1 s2 s3 s4 s5 s6
  have hbody := exec_mkSof0 hl h0 hm hready
  rw [sof0Body_eq, sourceBytes_length] at hbody
  refine ⟨fun h15 => ?_, fun h15 => ?_⟩
  · rw [hbody, if_pos h15, Res.finish_ends]
  have hsize : exec (.mkSof0 lseg) s = (sof0Sampling (sourceBytes s len) s2).finish := by
    rw [hbody, if_neg (Nat.not_lt.mpr h15)]
    rfl
  refine ⟨fun h5 => ?_, fun h5 => ⟨fun h7 => ?_, fun h7 => ?_⟩⟩
  · rw [hsize, sof0Sampling, if_pos h5, Res.finish_ends]
  · rw [hsize, sof0Sampling_badSampling h5 h7, Res.finish_ends]
  have hsampling : exec (.mkSof0 lseg) s = (sof0Y (sourceBytes s len) s3).finish := by
    rw [hsize, sof0Sampling_ok h5 h7]
    rfl
  refine ⟨fun h8 => ?_, fun h8 => ?_⟩
  · rw [hsampling, sof0Y, if_pos h8, Res.finish_ends]
  have hy : exec (.mkSof0 lseg) s = (sof0Cb (sourceBytes s len) s4).finish := by
    rw [hsampling, sof0Y, if_neg (Nat.not_lt.mpr h8)]
    rfl
  refine ⟨fun h11 => ?_, fun h10 h11 => ?_⟩
  · rw [hy, sof0Cb, if_pos h11, Res.finish_ends]
  have hcb : exec (.mkSof0 lseg) s = (sof0Cr (sourceBytes s len) s5).finish := by
    rw [hy, sof0Cb, if_neg (not_or.mpr ⟨not_not.mpr h10, Nat.not_lt.mpr h11⟩)]
    rfl
  refine ⟨fun h14 => ?_, fun h13 h14 => ?_⟩
  · rw [hcb, sof0Cr, if_pos h14, Res.finish_ends]
  · rw [hcb, sof0Cr, if_neg (not_or.mpr ⟨not_not.mpr h13, Nat.not_lt.mpr h14⟩)]
    rfl

/-- Settles O22: a skipped segment is read whole, and DRI looks at its first two bytes. -/
theorem driAndSkippedSegments : Obligations.DriAndSkippedSegments := by
  intro lseg c s len hl h0 hready s1
  refine ⟨?_, fun h1 => ?_, fun h2 hm => ?_⟩
  · rw [exec_mkOther, withSegment_nonempty _ s (by omega), hl, Nat.add_sub_cancel, skipSegment_ready hready, Res.finish_ok]
    rfl
  · rw [exec_mkDri hl h0 (by omega) hready, driBody, sourceBytes_length, if_pos (by omega), Res.finish_ends]
  · rw [exec_mkDri hl h0 hm hready, driBody, sourceBytes_length, if_neg (by omega)]
    rfl

/-- Settles O27: the checks of SOS answer the first code in R130's order, and PREPARE ends with it or with OK. -/
theorem sosChecks : Obligations.SosChecks := by
  intro lseg s len hl h0 hm hready seg s1 ok
  have hlength : seg.length = len := sourceBytes_length s len
  have hfails : ∀ {r}, Machine.sosChecks seg s.jd = some r → exec (.mkSos lseg) s = .next (endCommand r s1) := by
    intro r h
    rw [exec_mkSos hl h0 hm hready, sosBody_fails ((sosChecks_advance seg s len).trans h), Res.finish_ends]
  refine ⟨fun hsize => hfails (sosChecks_noSize hsize), fun hw hh => ?_⟩
  have hsize : ¬ (s.jd.width = 0 ∨ s.jd.height = 0) := not_or.mpr ⟨hw, hh⟩
  refine ⟨fun h7 => hfails (sosChecks_short hsize (hlength.symm ▸ h7)),
    fun h7 hc => hfails (sosChecks_badCount hsize (hlength.symm ▸ h7) hc), fun h7 hc => ?_⟩
  have hlen : 7 ≤ seg.length := hlength.symm ▸ h7
  refine ⟨fun i hi hok => ⟨fun h00 h11 => ?_, fun hsel hnot => ?_⟩, fun ok0 ok1 ok2 => ?_⟩
  · exact hfails (sosChecks_component hsize hlen hc hi hok (scanAnswer_badSelector h00 h11))
  · exact hfails (sosChecks_component hsize hlen hc hi hok (scanAnswer_noTable hsel hnot))
  have hok : ∀ k < 3, ok k := fun k hk => match k, hk with
    | 0, _ => ok0
    | 1, _ => ok1
    | 2, _ => ok2
  have hsampling := sosChecks_sampling hsize hlen hc hok
  refine ⟨fun hnby => hfails (hsampling.trans (if_pos hnby)), fun hnby => ?_⟩
  have hpasses : Machine.sosChecks seg s1.jd = none := hsampling.trans (if_neg hnby)
  rw [exec_mkSos hl h0 hm hready, sosBody_passes hpasses]
  rfl

end Sys2Proof.Proofs
end

section
/-! PROOFS of the statement about the DC symbols (R128, R170 to R174). -/

namespace Sys2Proof.Machine

/-! The component of a block (R170). -/

section
variable {j : Jd} {blk : Nat}

theorem Jd.cmp_y (h : blk < j.nby) : j.cmp blk = 0 := if_pos h

theorem Jd.cmp_cb (h : blk = j.nby) : j.cmp blk = 1 := by
  rw [Jd.cmp, if_neg (by omega), h, Nat.sub_self]

theorem Jd.cmp_cr (h : blk = j.nby + 1) : j.cmp blk = 2 := by
  rw [Jd.cmp, if_neg (by omega), h, Nat.add_sub_cancel_left]

/-- A block's component gives its Huffman table id, its quantization table and its predictor (R128, R170). -/
theorem Jd.selection_of_cmp {c : Nat} (h : j.cmp blk = c) :
    j.cmp blk = c ∧ j.tableId blk = decide (c ≠ 0) ∧ j.qtid (j.cmp blk) = j.qtid c ∧ j.dcv (j.cmp blk) = j.dcv c := by
  rw [Jd.tableId, h]
  exact ⟨rfl, rfl, rfl, rfl⟩

end

/-- `H[id][cls]` (R27). -/
theorem HuffTables.get_eq (h : HuffTables) (id cls : Bool) :
    h.get id cls = if id then (if cls then h.ac1 else h.dc1) else (if cls then h.ac0 else h.dc0) := by
  cases id <;> cases cls <;> rfl

/-- A predictor written (R173). -/
theorem Jd.setDcv_eq (j : Jd) (cmp : Nat) (v : Half) : j.setDcv cmp v = { j with
    dcv0 := if cmp = 0 then v else j.dcv0
    dcv1 := if cmp = 1 then v else j.dcv1
    dcv2 := if cmp = 0 ∨ cmp = 1 then j.dcv2 else v } := by
  match cmp with
  | 0 | 1 => rfl
  | cmp + 2 =>
    have h0 : cmp + 2 ≠ 0 := by omega
    have h1 : cmp + 2 ≠ 1 := by omega
    rw [Jd.setDcv, if_neg h0, if_neg h1, if_neg h0, if_neg h1, if_neg (not_or.mpr ⟨h0, h1⟩)]

/-! The DC symbols on a block whose de-quantizer is present. -/

section
variable {s : State} {q : QuantTable} (hq : s.jd.quant.get (s.jd.qtid (s.jd.cmp s.jd.blk)) = some q)
include hq

theorem exec_dcClass0 :
    exec .dcClass0 s = .next (s.setJd (startAc ((s.jd.dcv (s.jd.cmp s.jd.blk)).signExtend 32) q s.jd)) := by
  show execDcClass0 s = _
  rw [execDcClass0, blockQuant_some hq]
  rfl

/-- DC_CLASS with its raw bits `v`, which leave the bit reader at `m` over `c` (R171 to R174). -/
theorem exec_dcClass {ssss : BitVec 4} {v : Half} {t : State} (hbits : bitext ssss.toNat s = .ok v t) :
    let d := (t.jd.dcv t.jd.blockCmp).signExtend 32 + extend v ssss.toNat
    exec (.dcClass ssss) s = .next (t.setJd (startAc d q (t.jd.setDcv t.jd.blockCmp (d.setWidth 16)))) := by
  show execDcClass ssss s = _
  rw [execDcClass, blockQuant_some hq, Res.bind_ok, hbits]
  rfl

end

end Sys2Proof.Machine

namespace Sys2Proof.Proofs

open Sys2Proof.Machine

/-- Settles O33: a block's component by its place, and what each DC symbol stores before the AC loop begins. -/
theorem dcSymbols : Obligations.DcSymbols := by
  refine ⟨fun j blk => ⟨fun h => Jd.selection_of_cmp (Jd.cmp_y h), fun h => Jd.selection_of_cmp (Jd.cmp_cb h),
    fun h => Jd.selection_of_cmp (Jd.cmp_cr h)⟩, HuffTables.get_eq, ?_⟩
  intro s q hq cmp pred tmp
  constructor
  · exact exec_dcClass0 hq
  · intro ssss k l _ _ hm hready hl hlen d
    obtain ⟨i, hi, m, c, hbits, hleft⟩ := bitext_takes ⟨hm, hready, hl⟩ hlen
    refine ⟨i, m, c, hi, ?_, hleft.bits⟩
    rw [exec_dcClass hq hbits, Jd.setDcv_eq]
    rfl

end Sys2Proof.Proofs
end

section
/-! PROOFS of the statement about the invariants of the link: the credit (R264, R265), the watchdog (R266), the fragmenter
(R245) and the reassembly (R150, R235, R243). -/

namespace Sys2Proof.Machine

/-! A move that keeps the four invariants. -/

/-- Each invariant of the link that holds of `s` holds of `t`. -/
structure KeepsLink (s t : State) : Prop where
  credit : CreditInv s → CreditInv t
  watchdog : WatchdogInv s → WatchdogInv t
  frag : FragInv s → FragInv t
  rx : RxInv s → RxInv t

theorem KeepsLink.trans {s t u : State} (h : KeepsLink s t) (h' : KeepsLink t u) : KeepsLink s u :=
  ⟨h'.credit ∘ h.credit, h'.watchdog ∘ h.watchdog, h'.frag ∘ h.frag, h'.rx ∘ h.rx⟩

/-- Where the parameters and the TXC unit stay, only the reassembly is in question. -/
theorem KeepsLink.of_rx {s t : State} (hparams : t.params = s.params) (htxc : t.txc = s.txc) (hrx : RxInv s → RxInv t) :
    KeepsLink s t where
  credit h := ⟨hparams ▸ h.legal, htxc ▸ h.credit, htxc ▸ h.waiting⟩
  watchdog h := by
    have hperiod : t.period = s.period := by rw [State.period, htxc, hparams]; rfl
    exact ⟨hparams ▸ h.legal, by rw [htxc, hperiod]; exact h.count⟩
  frag h := by rw [FragInv, htxc]; exact h
  rx := hrx

/-- The invariant of the reassembly speaks of the parameters and the RX unit only. -/
theorem RxInv.of_rx {s t : State} (hparams : t.params = s.params) (hrx : t.rx = s.rx) (h : RxInv s) : RxInv t := by
  obtain ⟨hdrLen, frameLen, ready⟩ := h
  rw [← hparams, ← hrx] at *
  exact ⟨hdrLen, frameLen, ready⟩

theorem KeepsLink.of_eq {s t : State} (hparams : t.params = s.params) (htxc : t.txc = s.txc) (hrx : t.rx = s.rx) :
    KeepsLink s t := .of_rx hparams htxc (RxInv.of_rx hparams hrx)

theorem KeepsLink.refl (s : State) : KeepsLink s s := .of_eq rfl rfl rfl

/-- Where of TXC only the credit and CAPTURE_WAIT change, only the credit is in question. -/
theorem KeepsLink.of_credit {s t : State} (hframe : t = { s with
    intr := t.intr
    txc := { s.txc with credit := t.txc.credit, captureWait := t.txc.captureWait } }) (hcredit : CreditInv s → CreditInv t) :
    KeepsLink s t where
  credit := hcredit
  watchdog h := by rw [hframe]; exact ⟨h.legal, h.count⟩
  frag h := by rw [hframe]; exact h
  rx := by rw [hframe]; exact RxInv.of_rx rfl rfl

/-- Where of TXC only the fragmenter moves, only the fragmenter is in question. -/
theorem KeepsLink.of_frag {s t : State} (hframe : t = { s with
    txp := t.txp
    intr := t.intr
    out := t.out
    txc := { s.txc with
      fragLen := t.txc.fragLen
      fragBusy := t.txc.fragBusy
      fragK := t.txc.fragK
      fragS := t.txc.fragS
      fragType := t.txc.fragType } }) (hfrag : FragInv s → FragInv t) :
    KeepsLink s t where
  credit h := by rw [hframe]; exact ⟨h.legal, h.credit, h.waiting⟩
  watchdog h := by rw [hframe]; exact ⟨h.legal, h.count⟩
  frag := hfrag
  rx := by rw [hframe]; exact RxInv.of_rx rfl rfl

/-! The moves of JD, the host's JD commands, the tile answer and the camera reach neither RX nor TXC. -/

theorem JdOnly.keepsLink {s t : State} (h : JdOnly s t) : KeepsLink s t := by
  rw [h.frame]
  exact .of_eq rfl rfl rfl

theorem JdMove.keepsLink {s t : State} (h : JdMove s t) : KeepsLink s t := by
  cases h with
  | goesOn h => exact h.keepsLink
  | ends r h => exact h.keepsLink.trans (.of_eq rfl rfl rfl)
  | putsOut => exact .of_eq rfl rfl rfl

theorem decompStart_keepsLink (s : State) : KeepsLink s (decompStart s) := by
  unfold decompStart
  split <;> exact .of_eq rfl rfl rfl

theorem jdCommand_keepsLink {run : State → State} (hrun : ∀ u, KeepsLink u (run u)) {s t : State}
    (h : jdCommand run s = .next t) : KeepsLink s t := by
  unfold jdCommand at h
  split at h
  · cases h; exact .of_eq rfl rfl rfl
  · cases h; exact (KeepsLink.of_eq rfl rfl rfl : KeepsLink s (acceptCommand s)).trans (hrun _)

theorem answerTile_keepsLink (accept : Bool) (s : State) : KeepsLink s (answerTile accept s) := by
  unfold answerTile
  split_ifs <;> exact .of_eq rfl rfl rfl

theorem cameraWrite_keepsLink (a : Nat) (vs : List Byte) (s : State) : KeepsLink s (cameraWrite a vs s) := by
  rw [cameraWrite_frame]
  exact .of_eq rfl rfl rfl

/-! The reassembly (R231 to R243). -/

/-- What a placed fragment does: it is dropped (R233, R235), or its bytes are written (R236), and where it is the last one it
completes what ends inside the buffer (R240, R241). -/
theorem placeFragment_cases (base : Nat) (complete : Nat → Nat → State → State) (p : Packet) (s : State) :
    (∃ r, placeFragment base complete p s = dropDatagram r s) ∨
      ∃ off size vs, off + size ≤ s.params.rxBufSize ∧
        (placeFragment base complete p s = rxWriteBytes s.rx.fillIdx off vs s ∨
          placeFragment base complete p s = complete off size (rxWriteBytes s.rx.fillIdx off vs s)) := by
  unfold placeFragment
  split
  · exact .inl ⟨_, rfl⟩
  · dsimp only
    split_ifs with hsize hshort hbounds
    · exact .inl ⟨_, rfl⟩
    · exact .inl ⟨_, rfl⟩
    · exact .inl ⟨_, rfl⟩
    · exact .inr ⟨_, _, _, Nat.le_of_not_lt hbounds, .inr rfl⟩
    · exact .inr ⟨_, _, _, Nat.le_of_not_lt hbounds, .inl rfl⟩

theorem rxWriteBytes_keepsLink (b : Bool) (a : Nat) (vs : List Byte) (s : State) : KeepsLink s (rxWriteBytes b a vs s) := by
  rw [rxWriteBytes_frame]
  exact .of_eq (by simp) (by simp) (by simp)

theorem dropDatagram_keepsLink (r : DropReason) (s : State) : KeepsLink s (dropDatagram r s) :=
  .of_rx rfl rfl fun h => ⟨h.hdrLen, h.frameLen, h.ready⟩

/-- The length of a captured header fits in a buffer (R235, R240). -/
theorem completeHeader_keepsLink {off size : Nat} {s : State} (h : off + size ≤ s.params.rxBufSize) :
    KeepsLink s (completeHeader off size s) := by
  refine (rxWriteBytes_keepsLink _ _ _ s).trans (.of_rx rfl rfl fun hrx => ⟨?_, hrx.frameLen, hrx.ready⟩)
  rw [(completeHeader_leavesJd off size s).params]
  show (BitVec.ofNat 24 (off + size)).toNat ≤ _
  rw [BitVec.toNat_ofNat]
  exact (Nat.mod_le _ _).trans h

theorem Rx.setFrameLen_hdrLen (r : Rx) (b : Bool) (n : BitVec 24) : (r.setFrameLen b n).hdrLen = r.hdrLen := by
  cases b <;> rfl

theorem Rx.setFrameLen_fillIdx (r : Rx) (b : Bool) (n : BitVec 24) : (r.setFrameLen b n).fillIdx = r.fillIdx := by
  cases b <;> rfl

theorem completeFrame_txc (off size : Nat) (s : State) : (completeFrame off size s).txc = s.txc := by
  unfold completeFrame
  dsimp only
  split <;> rfl

/-- The length of a completed frame fits in a buffer, and the frame stands in the buffer being filled (R235, R241). -/
theorem completeFrame_keepsLink {off size : Nat} {s : State} (h : off + size ≤ s.params.rxBufSize) :
    KeepsLink s (completeFrame off size s) := by
  have hj := completeFrame_leavesJd h
  refine .of_rx hj.params (completeFrame_txc off size s) fun hrx => ⟨?_, fun b => ?_, fun _ => ?_⟩
  · rw [hj.params]
    exact (congrArg BitVec.toNat (Rx.setFrameLen_hdrLen ..)).le.trans hrx.hdrLen
  · rw [hj.params]
    rcases hj.frameLen b with e | hle
    · rw [e]; exact hrx.frameLen b
    · exact hle
  · exact (Rx.setFrameLen_fillIdx ..).symm

theorem placeFragment_keepsLink (base : Nat) {complete : Nat → Nat → State → State}
    (hc : ∀ {off size u}, off + size ≤ u.params.rxBufSize → KeepsLink u (complete off size u)) (p : Packet) (s : State) :
    KeepsLink s (placeFragment base complete p s) := by
  rcases placeFragment_cases base complete p s with ⟨r, e⟩ | ⟨off, size, vs, hfits, e | e⟩
  · rw [e]; exact dropDatagram_keepsLink r s
  · rw [e]; exact rxWriteBytes_keepsLink _ _ _ s
  · rw [← (rxWriteBytes_leavesJd s.rx.fillIdx off vs s).params] at hfits
    rw [e]
    exact (rxWriteBytes_keepsLink _ _ _ s).trans (hc hfits)

theorem passThrough_keepsLink (type : Byte) (p : Packet) (s : State) : KeepsLink s (passThrough type p s) := by
  unfold passThrough
  split
  · exact dropDatagram_keepsLink _ s
  · exact .of_eq rfl rfl rfl

/-- A TAKE leaves no frame ready (R243). -/
theorem take_keepsLink (s : State) : KeepsLink s (take s) := by
  unfold take
  split
  · exact .of_rx rfl rfl fun h => ⟨h.hdrLen, h.frameLen, nofun⟩
  · exact .of_rx rfl rfl fun h => ⟨h.hdrLen, h.frameLen, h.ready⟩

theorem clrSticky_keepsLink (s : State) : KeepsLink s (clrSticky s) :=
  .of_rx rfl rfl fun h => ⟨h.hdrLen, h.frameLen, h.ready⟩

/-! The credit and the watchdog (R263 to R267). -/

/-- A release raises the credit to at most CREDIT_MAX, and where a request waits it is granted (R265). -/
theorem release_creditInv {s : State} (h : CreditInv s) : CreditInv (release s) := by
  have hmax : min (s.txc.credit.toNat + 1) Config.creditMax ≤ Config.creditMax := Nat.min_le_right _ _
  have hfits (n : Nat) (hn : n ≤ Config.creditMax) : (BitVec.ofNat 3 n).toNat ≤ Config.creditMax :=
    (BitVec.toNat_ofNat n 3 ▸ Nat.mod_le _ _).trans hn
  unfold release
  dsimp only
  split
  · exact ⟨h.legal, hfits _ ((Nat.sub_le _ _).trans hmax), nofun⟩
  · rename_i hwait
    exact ⟨h.legal, hfits _ hmax, fun hw => absurd hw hwait⟩

theorem release_keepsLink (s : State) : KeepsLink s (release s) :=
  .of_credit (by rw [release_frame]) release_creditInv

/-- A watchdog period is at least one tick (R6). -/
theorem State.period_pos {s : State} (h : s.params.Legal) : 0 < s.period.toNat := by
  obtain ⟨-, -, -, hsteady, hinit⟩ := h
  unfold State.period
  split
  · exact hsteady
  · exact Nat.lt_of_lt_of_le hsteady hinit

/-- The watchdog restarts (R263, R266). -/
theorem restartWatchdog_keepsLink (s : State) (firstAck : Bool) :
    KeepsLink s (s.setTxc { s.txc with wdtCnt := 0, firstAck := firstAck }) where
  credit h := ⟨h.legal, h.credit, h.waiting⟩
  watchdog h := ⟨h.legal, State.period_pos (s := s.setTxc _) h.legal⟩
  frag h := h
  rx := RxInv.of_rx rfl rfl

theorem txcAck_keepsLink (s : State) : KeepsLink s (txcAck s) :=
  (restartWatchdog_keepsLink s true).trans (release_keepsLink _)

/-- A tick counts up below the period, or fires and restarts the watchdog (R266). -/
theorem tick_keepsLink (s : State) : KeepsLink s (tick s) := by
  unfold tick
  dsimp only
  split
  · have hrestart : KeepsLink s ((s.setTxc { s.txc with wdtCnt := 0 }).event .wdtFire) :=
      (restartWatchdog_keepsLink s s.txc.firstAck).trans (.of_eq rfl rfl rfl)
    exact hrestart.trans (release_keepsLink _)
  · rename_i hcount
    exact ⟨fun h => ⟨h.legal, h.credit, h.waiting⟩, fun h => ⟨h.legal, Nat.lt_of_not_le hcount⟩, id,
      RxInv.of_rx rfl rfl⟩

/-- A request takes a credit, or waits where there is none (R264). -/
theorem txcCaptureReq_keepsLink {s t : State} (h : execTxcCaptureReq s = .next t) : KeepsLink s t := by
  unfold execTxcCaptureReq at h
  split_ifs at h with hwait hzero
  · cases h; exact .refl s
  · cases h
    exact .of_credit rfl fun h => ⟨h.legal, h.credit, fun _ => hzero⟩
  · cases h
    refine .of_credit rfl fun h => ⟨h.legal, ?_, fun hw => absurd hw hwait⟩
    have hle := h.credit
    show (s.txc.credit - 1).toNat ≤ _
    bv_omega

/-! The fragmenter and the transmit port (R244 to R246, R260, R261). -/

/-- Behind a fragment that is not the last one there is a byte left (R245, R246). -/
theorem next_fragment_nonempty {total k : Nat} (hk : k * Config.fragMax < total) (h : fragLast total k = false) :
    (k + 1) * Config.fragMax < total := by
  have hne := of_decide_eq_false h
  unfold fragSize at hne
  rw [Nat.add_one_mul]
  omega

/-- A fragment sent moves the fragmenter on, which is done behind the last one (R246). -/
theorem sendFragment_frame (s : State) : sendFragment s = { s with
    txp := (sendFragment s).txp
    intr := (sendFragment s).intr
    out := (sendFragment s).out
    txc := { s.txc with
      fragK := s.txc.fragK + 1
      fragBusy := s.txc.fragBusy && !fragLast s.txc.fragS.toNat s.txc.fragK.toNat } } := by
  unfold sendFragment
  dsimp only
  split
  · rename_i hlast
    rw [hlast, Bool.not_true, Bool.and_false]
    rfl
  · rename_i hlast
    rw [eq_false_of_ne_true hlast, Bool.not_false, Bool.and_true]
    rfl

theorem sendFragment_fragInv {s : State} (h : FragInv s) : FragInv (sendFragment s) := by
  rw [sendFragment_frame]
  intro hsending
  obtain ⟨hbusy, hlast⟩ := Bool.and_eq_true_iff.mp hsending
  have hnext := next_fragment_nonempty (h hbusy) ((Bool.not_eq_true' _).mp hlast)
  have hsucc : (s.txc.fragK + 1).toNat = s.txc.fragK.toNat + 1 := by
    have hlt := s.txc.fragS.isLt
    unfold Config.fragMax at hnext
    bv_omega
  rw [← hsucc] at hnext
  exact hnext

theorem sendFragment_keepsLink (s : State) : KeepsLink s (sendFragment s) :=
  .of_frag (by rw [sendFragment_frame]) sendFragment_fragInv

theorem sendAck_keepsLink (s : State) : KeepsLink s (sendAck s) :=
  .of_rx rfl rfl fun h => ⟨h.hdrLen, h.frameLen, h.ready⟩

theorem txpStep_keepsLink (s : State) : KeepsLink s (txpStep s) := by
  have hdraw : KeepsLink s s.draw := .of_eq rfl rfl rfl
  unfold txpStep
  split_ifs
  · exact sendFragment_keepsLink s
  · exact hdraw.trans (sendAck_keepsLink _)
  · exact hdraw.trans (sendFragment_keepsLink _)
  · exact sendAck_keepsLink s

theorem txDone_keepsLink (s : State) : KeepsLink s (txDone s) := by
  unfold txDone
  split <;> exact .of_eq rfl rfl rfl

/-- A START with bytes to send begins at the first of them (R244, R245). -/
theorem txcFragStart_keepsLink {frame : Bool} {s t : State} (h : execTxcFragStart frame s = .next t) : KeepsLink s t := by
  unfold execTxcFragStart at h
  dsimp only at h
  split_ifs at h with hbusy hempty
  · cases h; exact .refl s
  · cases h
    exact .of_frag rfl fun _ hb => absurd hb hbusy
  · cases h
    refine .of_frag rfl fun _ _ => ?_
    show 0 * Config.fragMax < s.txc.fragLen.toNat
    rw [Nat.zero_mul]
    exact Nat.pos_of_ne_zero fun h0 => hempty (BitVec.eq_of_toNat_eq h0)

/-- Of the plain writes TXC_FRAG_LEN reaches TXC, where a length takes effect at the next START only (R40, R244). -/
theorem regWrite_keepsLink (off : Nat) (w : Word) (s : State) : KeepsLink s (regWrite off w s) := by
  unfold regWrite
  split_ifs
  · exact .of_frag rfl id
  · exact .of_eq rfl rfl rfl
  · exact .refl s

/-! The instructions, and what is found to do. -/

theorem exec_keepsLink {i : Instr} {s t : State} (h : exec i s = .next t) : KeepsLink s t := by
  cases i with
  | pktAck p =>
    cases h
    split
    · exact dropDatagram_keepsLink _ s
    · exact txcAck_keepsLink s
  | pktInitialHeaderData p => cases h; exact placeFragment_keepsLink _ completeHeader_keepsLink p s
  | pktFrameData p => cases h; exact placeFragment_keepsLink _ completeFrame_keepsLink p s
  | pktNak p | pktTelemetry p | pktPing p | pktSwitchChannel p | pktTxPowerUpdate p | pktEnableLed p =>
    cases h; exact passThrough_keepsLink _ p s
  | pktUnknown type p => cases h; exact dropDatagram_keepsLink _ s
  | jdNop buf => cases h; exact .refl s
  | jdPrepare buf => exact jdCommand_keepsLink (run := prepareInit buf) (fun _ => .of_eq rfl rfl rfl) h
  | jdDecomp buf => exact jdCommand_keepsLink decompStart_keepsLink h
  | jdReserved buf => cases h; exact .of_eq rfl rfl rfl
  | rxTake clr =>
    cases h
    split
    · exact (take_keepsLink s).trans (clrSticky_keepsLink _)
    · exact take_keepsLink s
  | rxClrSticky => cases h; exact clrSticky_keepsLink s
  | txcCaptureReq => exact txcCaptureReq_keepsLink h
  | txcFragStart frame => exact txcFragStart_keepsLink h
  | intW1c clear => cases h; exact .of_eq rfl rfl rfl
  | _ => exact (exec_jdMove rfl h).keepsLink

/-- A reset state meets the four invariants (R330). -/
theorem hwReset_keepsLink (s : State) : KeepsLink s (hwReset s) where
  credit h := by
    obtain ⟨hlegal, hcredit, hwaiting⟩ := State.resetWith_creditInv (s.epoch + 1) h.legal
    exact ⟨hlegal, hcredit, hwaiting⟩
  watchdog h := by
    obtain ⟨hlegal, hcount⟩ := State.resetWith_watchdogInv (s.epoch + 1) h.legal
    exact ⟨hlegal, hcount⟩
  frag _ := State.resetWith_fragInv s.params (s.epoch + 1)
  rx _ := by
    obtain ⟨hhdr, hframe, hready⟩ := State.resetWith_rxInv s.params (s.epoch + 1)
    exact ⟨hhdr, hframe, hready⟩

section
variable {r s : State}

theorem KeepsLink.jdFetch (h : KeepsLink r s) : (jdFetch s).Holds (KeepsLink r) := by
  have hj := jdFetch_staysInJd s
  cases hx : Machine.jdFetch s with
  | run i u => rw [hx] at hj; exact h.trans (JdOnly.keepsLink hj)
  | moved u => rw [hx] at hj; exact h.trans (JdMove.keepsLink hj)
  | fault f => trivial
  | refused e => trivial

theorem KeepsLink.radioFetch (h : KeepsLink r s) (d : List Byte) : (radioFetch d s).Holds (KeepsLink r) := by
  unfold Machine.radioFetch
  split
  · exact h
  · exact h.trans (dropDatagram_keepsLink _ s)
  · exact h.trans (dropDatagram_keepsLink _ s)

theorem KeepsLink.writeFetch (h : KeepsLink r s) (off n : Nat) (w : Word) :
    (writeFetch off n w s).Holds (KeepsLink r) := by
  unfold Machine.writeFetch
  split
  · split
    · exact h
    · exact h.trans (regWrite_keepsLink off w s)
  · trivial

theorem KeepsLink.inputFetch (h : KeepsLink r s) (i : Input) : (inputFetch i s).Holds (KeepsLink r) := by
  cases i with
  | radio d => exact h.radioFetch d
  | regWrite off n w => exact h.writeFetch off n w
  | regRead off n =>
    unfold Machine.inputFetch
    dsimp only
    split
    · exact h.trans (.of_eq rfl rfl rfl)
    · trivial
  | tileAnswer accept => exact h.trans (answerTile_keepsLink accept s)
  | txdone => exact h.trans (txDone_keepsLink s)
  | tick => exact h.trans (tick_keepsLink s)
  | camera a bytes => exact h.trans (cameraWrite_keepsLink a bytes s)
  | reset => exact h.trans (hwReset_keepsLink s)

theorem KeepsLink.turnFetch (h : KeepsLink r s) (turn : Turn) : (turnFetch turn s).Holds (KeepsLink r) := by
  cases turn with
  | env =>
    unfold Machine.turnFetch envFetch
    dsimp only
    split
    · exact h
    · rename_i input rest _
      exact KeepsLink.inputFetch (s := { s with inputs := rest }) (h.trans (.of_eq rfl rfl rfl)) input
  | jd => exact h.jdFetch
  | txp =>
    unfold Machine.turnFetch txpFetch
    dsimp only
    split
    · exact h.trans (txpStep_keepsLink s)
    · exact h

end

theorem fetch_keepsLink (s : State) : (fetch s).Holds (KeepsLink s) := by
  refine KeepsLink.turnFetch ?_ _
  rw [s.turn_schedule]
  exact .of_eq rfl rfl rfl

end Sys2Proof.Machine

namespace Sys2Proof.Proofs

open Sys2Proof.Machine

/-- Settles O57: what a step finds to do keeps the four invariants, and so does every instruction. -/
theorem linkInvariants : Obligations.LinkInvariants := by
  intro s t h
  have hk : KeepsLink s t := step_holds (fetch_keepsLink s) (fun hu hv => hu.trans (exec_keepsLink hv)) h
  exact ⟨hk.credit, hk.watchdog, hk.frag, hk.rx⟩

end Sys2Proof.Proofs
end

section
/-! PROOFS of the statements about the bytes of the entropy data that are no symbol: a data byte, a pair FF xx and the end of
the source inside HUFFEXT (R151, R153, R156), and a restart marker (R154, R155). -/

namespace Sys2Proof.Machine

/-! FetchData inside HUFFEXT (R151). -/

section
variable {s : State}

/-- A byte other than FF is a data byte and goes to the HUFFEXT in progress. -/
theorem fetchEntropy_dataByte (h : SourceReady s 1) (hff : sourceBytes s 1 ≠ [0xFF]) :
    fetchEntropy s = .moved (feedReader (s.rxByte s.jd.srcIdx s.jd.srcPos.toNat) (s.advance 1)) := by
  have hbytes : sourceBytes s 1 = [s.rxByte s.jd.srcIdx s.jd.srcPos.toNat] := sourceBytes_succ h
  have hb : s.rxByte s.jd.srcIdx s.jd.srcPos.toNat ≠ 0xFF := fun e => hff (by rw [hbytes, e])
  rw [fetchEntropy, needByte_ready h, Res.bind_ok, if_neg hb]
  rfl

theorem fetchEntropy_exhausted (hend : s.jd.srcPos.toNat = s.jd.srcLen.toNat) :
    fetchEntropy s = .moved (endCommand .inp s) := by
  rw [fetchEntropy, needByte_exhausted hend]
  rfl

/-- Behind an FF at the end of the source POS stands past the FF. -/
theorem fetchEntropy_ff_exhausted (h : SourceReady s 1) (hff : sourceBytes s 1 = [0xFF])
    (hend : s.jd.srcPos.toNat + 1 = s.jd.srcLen.toNat) : fetchEntropy s = .moved (endCommand .inp (s.advance 1)) := by
  obtain ⟨hb, -⟩ := needByte_sourceBytes (n := 0) h hff
  have hpos := State.advance_srcPos h (Nat.le_refl 1)
  rw [fetchEntropy, hb, Res.bind_ok, if_pos rfl, needByte_exhausted (hpos.trans hend)]
  rfl

end

/-- The pair FF 00 gives the data byte FF. -/
theorem exec_edStuffedFF (s : State) : exec .edStuffedFF s = .next (feedReader 0xFF s) := rfl

theorem exec_edMarkerInData (xx : Byte) (s : State) : exec (.edMarkerInData xx) s = .next (endCommand .fmt1 s) := rfl

/-! RESTART (R154). -/

/-- The number of a restart marker agrees with the low three bits of a count where the two are equal modulo 8 (R154). -/
theorem eq_low_bits_iff (n : BitVec 3) (c : Half) : n = c.extractLsb' 0 3 ↔ n.toNat = c.toNat % 8 := by
  rw [← BitVec.toNat_inj, BitVec.extractLsb'_toNat, Nat.shiftRight_zero]

theorem exec_mkRstn_expected {n : BitVec 3} {s : State} (h : n = (s.jd.rsc - 1).extractLsb' 0 3) :
    exec (.mkRstn n) s =
      .next (s.setJd (startBlock 0 { s.jd with msk := 0, dcv0 := 0, dcv1 := 0, dcv2 := 0, rst := 1 })) := if_pos h

theorem exec_mkRstn_unexpected {n : BitVec 3} {s : State} (h : n ≠ (s.jd.rsc - 1).extractLsb' 0 3) :
    exec (.mkRstn n) s = .next (endCommand .fmt1 s) := if_neg h

end Sys2Proof.Machine

namespace Sys2Proof.Proofs

open Sys2Proof.Machine

/-- Settles O29: what HUFFEXT fetches in each case where it needs a byte, and the meanings of the two pairs. -/
theorem entropyBytes : Obligations.EntropyBytes := by
  refine ⟨fun s u hturn hm hx => ?_, fun xx s => ⟨exec_edStuffedFF s, exec_edMarkerInData xx s⟩⟩
  have hfetch : fetch s = fetchEntropy u := (fetch_jd hturn).trans (jdFetch_needsByte hm hx)
  refine ⟨fun hready hff => ?_, fun hend => ?_, fun hready hff hend => ?_⟩
  · exact step_of_moved (hfetch.trans (fetchEntropy_dataByte hready hff))
  · exact step_of_moved (hfetch.trans (fetchEntropy_exhausted (congrArg BitVec.toNat hend)))
  · exact step_of_moved (hfetch.trans (fetchEntropy_ff_exhausted hready hff hend))

/-- Settles O28: the two branches of RESTART's comparison. -/
theorem restartMarker : Obligations.RestartMarker := by
  intro n s
  rw [← eq_low_bits_iff, Ne, ← eq_low_bits_iff]
  exact ⟨exec_mkRstn_expected, exec_mkRstn_unexpected⟩

end Sys2Proof.Proofs
end

section
/-! PROOFS of the statements about the numbers and the AC symbols of a block: EXTEND (R172) and the AC loop (R175, R176). -/

namespace Sys2Proof.Machine

/-! EXTEND (R172). -/

/-- A halfword widened stands for its unsigned value. -/
theorem toInt_widened (v : Half) : (v.setWidth 32).toInt = v.toNat := by
  have hv := v.isLt
  rw [BitVec.toInt_setWidth, Int.bmod_eq_of_le (by omega) (by omega)]

/-- What EXTEND subtracts for a small class. -/
theorem toInt_extendOffset {n : Nat} (h1 : 1 ≤ n) (h2 : n ≤ 2048) : (BitVec.ofNat 32 n - 1).toInt = n - 1 := by
  have hn : BitVec.ofNat 32 n - 1 = BitVec.ofNat 32 (n - 1) := by
    apply BitVec.eq_of_toNat_eq
    bv_omega
  rw [hn, BitVec.toInt_ofNat', Int.bmod_eq_of_le (by omega) (by omega)]
  omega

/-- EXTEND of a value below the middle of its class is negative. -/
theorem toInt_extend_low {v : Half} {s : Nat} (hs : s ≤ 11) (hv : v.toNat < 2 ^ (s - 1)) :
    (extend v s).toInt = v.toNat - (2 ^ s - 1) := by
  have h2 : 2 ^ s ≤ 2048 := Nat.pow_le_pow_right (by omega) hs
  have h1 : 2 ^ (s - 1) ≤ 2 ^ s := Nat.pow_le_pow_right (by omega) (Nat.sub_le s 1)
  have hoff := toInt_extendOffset (by omega) h2
  have hpow : ((2 ^ s : Nat) : Int) = 2 ^ s := by push_cast; rfl
  rw [extend, if_pos hv, BitVec.toInt_sub, toInt_widened, hoff, Int.bmod_eq_of_le (by omega) (by omega), hpow]

theorem toInt_extend_high {v : Half} {s : Nat} (hv : ¬ v.toNat < 2 ^ (s - 1)) : (extend v s).toInt = v.toNat := by
  rw [extend, if_neg hv, toInt_widened]

/-! The AC loop (R175). -/

section
variable {s : State} {rrrr : BitVec 4}

/-- A run that reaches position 64 raises FMT1. -/
theorem acRun_past (h0 : rrrr ≠ 0) (h : 64 ≤ s.jd.coefIdx + rrrr.toNat) : acRun rrrr s = .ends .fmt1 s := if_pos ⟨h0, h⟩

/-- A run that stays below position 64, or is 0, moves the loop's index. -/
theorem acRun_inside (h : rrrr = 0 ∨ s.jd.coefIdx + rrrr.toNat < 64) : acRun rrrr s = .ok () (s.ranOver rrrr) := by
  rcases acRun_cases rrrr s with ⟨-, h0, h64⟩ | ⟨hok, -⟩
  · exact absurd (h.resolve_left h0) (Nat.not_lt.mpr h64)
  · exact hok

/-- Behind position 63 the loop is left. -/
theorem acNext_last (h : s.jd.coefIdx = 63) : acNext s = s.setJd { s.jd with coefIdx := 64, mode := .transform } := by
  rw [acNext, h]
  rfl

/-- Below position 63 the next symbol is extracted. -/
theorem acNext_inside (h : s.jd.coefIdx < 63) :
    acNext s = s.setJd { s.jd with coefIdx := s.jd.coefIdx + 1, mode := .huffAc, hx := s.jd.newReader } :=
  if_neg (by omega)

/-- At a position of the block: the next position, and the next symbol below 64. -/
theorem acNext_eq (h : s.jd.coefIdx < 64) : acNext s = s.setJd { s.jd with
    coefIdx := s.jd.coefIdx + 1
    mode := if s.jd.coefIdx = 63 then .transform else .huffAc
    hx := if s.jd.coefIdx = 63 then s.jd.hx else s.jd.newReader } := by
  by_cases h63 : s.jd.coefIdx = 63
  · rw [acNext_last h63, if_pos h63, if_pos h63, h63]
  · rw [acNext_inside (by omega), if_neg h63, if_neg h63]

/-! The symbols that take no bits. -/

theorem exec_acEob (s : State) : exec .acEob s = .next { s with jd := { s.jd with mode := .transform } } := rfl

/-- ZRL is the run of 15 with class 0. -/
theorem exec_acSkip {i : Instr} (hi : i ∈ (if rrrr = 15 then [Instr.acZrl, .acRunSkip rrrr] else [.acRunSkip rrrr])) :
    exec i s = execAcRunSkip rrrr s := by
  by_cases h15 : rrrr = 15
  · subst h15
    rw [if_pos rfl, List.mem_pair] at hi
    rcases hi with rfl | rfl <;> rfl
  · rw [if_neg h15, List.mem_singleton] at hi
    subst hi
    rfl

theorem execAcRunSkip_past (h0 : rrrr ≠ 0) (h : 64 ≤ s.jd.coefIdx + rrrr.toNat) :
    execAcRunSkip rrrr s = .next (endCommand .fmt1 s) := by
  rw [execAcRunSkip, acRun_past h0 h, Res.bind_ends, Res.finish_ends]

theorem execAcRunSkip_inside (h : s.jd.coefIdx + rrrr.toNat < 64) :
    execAcRunSkip rrrr s = .next (acNext (s.ranOver rrrr)) := by
  rw [execAcRunSkip, acRun_inside (.inr h), Res.bind_ok, Res.finish_ok]

theorem exec_acBadClass_past (ssss : BitVec 4) (h0 : rrrr ≠ 0) (h : 64 ≤ s.jd.coefIdx + rrrr.toNat) :
    exec (.acBadClass rrrr ssss) s = .next (endCommand .fmt1 s) := by
  show execAcBadClass rrrr ssss s = _
  rw [execAcBadClass, acRun_past h0 h, Res.bind_ends, Res.finish_ends]

theorem exec_acBadClass_inside (ssss : BitVec 4) (h : rrrr = 0 ∨ s.jd.coefIdx + rrrr.toNat < 64) :
    exec (.acBadClass rrrr ssss) s = .next (endCommand .fmt1 (s.ranOver rrrr)) := by
  show execAcBadClass rrrr ssss s = _
  rw [execAcBadClass, acRun_inside h, Res.bind_ok, Res.finish_ends]

/-! The symbols with a coefficient. -/

theorem exec_acRunSize_past (ssss : BitVec 4) (h0 : rrrr ≠ 0) (h : 64 ≤ s.jd.coefIdx + rrrr.toNat) :
    exec (.acRunSize rrrr ssss) s = .next (endCommand .fmt1 s) := by
  show execAcRunSize rrrr ssss s = _
  rw [execAcRunSize, acRun_past h0 h, Res.bind_ends, Res.finish_ends]

/-- A coefficient stored, and the loop moved on from its position. -/
theorem acNext_acStore (e : Word) (q : QuantTable) (h : s.jd.coefIdx < 64) :
    acNext (s.setJd (acStore e q s.jd)) = s.setJd { s.jd with
      tmp := s.jd.tmp.setIfInBounds (zigAt s.jd.coefIdx) (asr (e * q.toList.getD (zigAt s.jd.coefIdx) 0) 8)
      acAny := true
      coefIdx := s.jd.coefIdx + 1
      mode := if s.jd.coefIdx = 63 then .transform else .huffAc
      hx := if s.jd.coefIdx = 63 then s.jd.hx else s.jd.newReader } :=
  acNext_eq (s := s.setJd (acStore e q s.jd)) h

/-- AC_RUN_SIZE with its raw bits `v`, taken behind its run (R175, R176). -/
theorem exec_acRunSize {q : QuantTable} {ssss : BitVec 4} {v : Half} {t : State}
    (hq : s.jd.quant.get (s.jd.qtid (s.jd.cmp s.jd.blk)) = some q) (h : s.jd.coefIdx + rrrr.toNat < 64)
    (hbits : bitext ssss.toNat (s.ranOver rrrr) = .ok v t) :
    exec (.acRunSize rrrr ssss) s = .next (acNext (t.setJd (acStore (extend v ssss.toNat) q t.jd))) := by
  show execAcRunSize rrrr ssss s = _
  rw [execAcRunSize, acRun_inside (.inr h), Res.bind_ok, blockQuant_some (s := s.ranOver rrrr) hq, Res.bind_ok, hbits,
    Res.bind_ok, Res.finish_ok]

end

end Sys2Proof.Machine

namespace Sys2Proof.Proofs

open Sys2Proof.Machine

/-- Settles O32: the two branches of EXTEND. -/
theorem extendIsSigned : Obligations.ExtendIsSigned := by
  intro v s _ hs _
  split
  · next hlow => exact toInt_extend_low hs hlow
  · next hhigh => exact toInt_extend_high hhigh

/-- Settles O34: the run check, and where it passes the move to the next position. -/
theorem acSymbolsWithoutBits : Obligations.AcSymbolsWithoutBits := by
  intro s
  refine ⟨exec_acEob s, fun rrrr h0 i hi => ?_, fun rrrr ssss => ⟨fun h0 h => ?_, exec_acBadClass_inside ssss⟩⟩
  · rw [exec_acSkip hi]
    refine ⟨execAcRunSkip_past h0, fun h => ?_, fun h => ?_⟩
    · rw [execAcRunSkip_inside (Nat.lt_succ_of_lt h), acNext_inside (s := s.ranOver rrrr) h]
      rfl
    · rw [execAcRunSkip_inside (by omega), acNext_last (s := s.ranOver rrrr) h]
      rfl
  · exact ⟨exec_acBadClass_past ssss h0 h, exec_acRunSize_past ssss h0 h⟩

/-- Settles O35: BITEXT takes the raw bits behind the run, and the loop goes on from the position of the coefficient. -/
theorem acCoefficient : Obligations.AcCoefficient := by
  intro s q rrrr ssss k l hq _ _ hrun hm hready hl hlen i e
  have hahead : BitsAhead (s.ranOver rrrr) s.jd.msk s.jd.cur k l := ⟨hm, hready, hl⟩
  obtain ⟨j, hj, m, c, hbits, hleft⟩ := bitext_takes hahead hlen
  refine ⟨j, m, c, hj, ?_, hleft.bits⟩
  have hbehind : bitext ssss.toNat (s.ranOver rrrr) = .ok (BitVec.ofNat 16 (bitsVal (l.take ssss.toNat)))
      (s.setJd { s.jd with srcPos := s.jd.srcPos + BitVec.ofNat 24 j, msk := m, cur := c, coefIdx := i }) := hbits
  rw [exec_acRunSize hq hrun hbehind, acNext_acStore, State.setJd_setJd]
  · rfl
  · exact hrun

end Sys2Proof.Proofs
end

section
/-! PROOFS of the statements about the inverse transform: the butterfly and the two passes (R177 to R179), the fast path (R180),
and TRANSFORM in its MCU (R170, R181). -/

namespace Sys2Proof.Machine

/-! The butterfly (R177). -/

theorem bflyEven_eq (x0 x2 x4 x6 : Word) :
    let e2 := x2 + x6
    let e3 := asr ((x2 - x6) * 5792) 12 - e2
    bflyEven x0 x2 x4 x6 = (x0 + x4 + e2, x0 - x4 + e3, x0 - x4 - e3, x0 + x4 - e2) := by
  simp only [bflyEven, bflyM13, BitVec.add_comm x6 x2, BitVec.add_comm _ (x0 - x4)]

theorem bflyOdd_eq (x7 x1 x5 x3 : Word) :
    let w := asr ((x1 - x7 + (x5 - x3)) * 7568) 12
    let v7 := x1 + x7 + (x5 + x3)
    let v6 := w - asr ((x5 - x3) * 10703) 12 - v7
    let v5 := asr ((x1 + x7 - (x5 + x3)) * 5792) 12 - v6
    let v4 := w - asr ((x1 - x7) * 4433) 12 - v5
    bflyOdd x7 x1 x5 x3 = (v4, v5, v6, v7) := by
  simp only [bflyOdd, bflyM13, bflyM2, bflyM4, bflyM5, BitVec.add_comm x3 x5, BitVec.add_comm _ (x1 + x7)]

/-- The eight outputs: the even part plus the odd part, then mirrored the even part minus the odd part. -/
theorem bfly_toList (x : Vector Word 8) :
    let e := bflyEven x[0] x[2] x[4] x[6]
    let o := bflyOdd x[7] x[1] x[5] x[3]
    (bfly x).toList = [e.1 + o.2.2.2, e.2.1 + o.2.2.1, e.2.2.1 + o.2.1, e.2.2.2 + o.1,
      e.2.2.2 - o.1, e.2.2.1 - o.2.1, e.2.1 - o.2.2.1, e.1 - o.2.2.2] := rfl

/-- A row or column whose first element is `d` and whose other elements are 0. -/
def dcOnly (d : Word) : Vector Word 8 := Vector.ofFn fun k => if k.val = 0 then d else 0

theorem dcOnly_getElem (d : Word) {k : Nat} (hk : k < 8) : (dcOnly d)[k] = if k = 0 then d else 0 := by
  rw [dcOnly, Vector.getElem_ofFn]

/-- A number alone on element 0 comes out on every element. -/
theorem bfly_dcOnly (d : Word) : bfly (dcOnly d) = Vector.replicate 8 d := by
  have heven : bflyEven d 0 0 0 = (d, d, d, d) := by simp [bflyEven, asr]
  have hodd : bflyOdd 0 0 0 0 = (0, 0, 0, 0) := by decide
  have hout : bfly (dcOnly d) = #v[d + 0, d + 0, d + 0, d + 0, d - 0, d - 0, d - 0, d - 0] := by
    simp only [bfly, dcOnly_getElem, reduceIte, OfNat.ofNat_ne_zero, Nat.one_ne_zero, heven, hodd]
  rw [hout]
  simp only [BitVec.add_zero, BitVec.sub_zero, BitVec.ofNat_eq_ofNat]
  rfl

/-! Rows and columns (R178, R179). -/

theorem rowPass_getElem (t : Vector Word 64) {i : Nat} (hi : i < 64) :
    (rowPass t)[i] = (bfly (rowOf t ⟨i / 8, by omega⟩))[i % 8] := by
  simp [rowPass]

theorem columnPass_getElem (t : Vector Word 64) {i : Nat} (hi : i < 64) :
    (columnPass t)[i] = clip8 (asr (bfly (columnOf t ⟨i % 8, by omega⟩))[i / 8] 8) := by
  simp [columnPass]

theorem toList_getD_of_lt {α : Type} {n i : Nat} (v : Vector α n) (h : i < n) (d : α) : v.toList.getD i d = v[i] := by
  rw [List.getD_eq_getElem _ _ (by simpa using h), Vector.getElem_toList]

theorem rowOf_eq (t : Vector Word 64) (r : Fin 8) :
    rowOf t r = Vector.ofFn fun k : Fin 8 => t.toList.getD (8 * r.val + k.val) 0 := by
  apply Vector.ext
  intro k hk
  rw [rowOf, Vector.getElem_ofFn, Vector.getElem_ofFn, toList_getD_of_lt]

theorem columnOf_eq (t : Vector Word 64) (c : Fin 8) :
    columnOf t c = Vector.ofFn fun k : Fin 8 => t.toList.getD (8 * k.val + c.val) 0 + (if k.val = 0 then 32768 else 0) := by
  apply Vector.ext
  intro k hk
  rw [columnOf, Vector.getElem_ofFn, Vector.getElem_ofFn, toList_getD_of_lt]
  split
  · rfl
  · exact (BitVec.add_zero _).symm

theorem rowPass_at (t : Vector Word 64) (r c : Fin 8) :
    (rowPass t).toList.getD (8 * r.val + c.val) 0 = (bfly (rowOf t r)).toList.getD c.val 0 := by
  have hrow : (8 * r.val + c.val) / 8 = r.val := by omega
  have hcol : (8 * r.val + c.val) % 8 = c.val := by omega
  rw [toList_getD_of_lt _ (by omega), toList_getD_of_lt _ c.isLt, rowPass_getElem _ (by omega)]
  simp only [hrow, hcol]

theorem columnPass_at (t : Vector Word 64) (r c : Fin 8) :
    (columnPass t).toList.getD (8 * r.val + c.val) 0 = clip8 (asr ((bfly (columnOf t c)).toList.getD r.val 0) 8) := by
  have hrow : (8 * r.val + c.val) / 8 = r.val := by omega
  have hcol : (8 * r.val + c.val) % 8 = c.val := by omega
  rw [toList_getD_of_lt _ (by omega), toList_getD_of_lt _ r.isLt, columnPass_getElem _ (by omega)]
  simp only [hrow, hcol]

/-! The fast path (R180). -/

/-- A block in which only `tmp[0]` is not 0. -/
def dcBlock (d : Word) : Vector Word 64 := (Vector.replicate 64 0).set 0 d

theorem dcBlock_getElem (d : Word) {i : Nat} (hi : i < 64) : (dcBlock d)[i] = if i = 0 then d else 0 := by
  rw [dcBlock, Vector.getElem_set, Vector.getElem_replicate]
  exact if_congr eq_comm rfl rfl

theorem rowOf_dcBlock (d : Word) (r : Fin 8) : rowOf (dcBlock d) r = dcOnly (if r.val = 0 then d else 0) := by
  apply Vector.ext
  intro k hk
  simp only [rowOf, Vector.getElem_ofFn, dcBlock_getElem, dcOnly_getElem]
  by_cases hk0 : k = 0
  · rw [if_pos hk0]
    exact if_congr (by omega) rfl rfl
  · rw [if_neg hk0, if_neg (by omega)]

/-- The row pass spreads `tmp[0]` over row 0. -/
theorem rowPass_dcBlock_getElem (d : Word) {i : Nat} (hi : i < 64) :
    (rowPass (dcBlock d))[i] = if i < 8 then d else 0 := by
  simp only [rowPass_getElem _ hi, rowOf_dcBlock, bfly_dcOnly, Vector.getElem_replicate]
  exact if_congr (by omega) rfl rfl

/-- The columns then hold row 0's number and the level shift. -/
theorem columnOf_rowPass_dcBlock (d : Word) (c : Fin 8) : columnOf (rowPass (dcBlock d)) c = dcOnly (d + 32768) := by
  apply Vector.ext
  intro k hk
  simp only [columnOf, Vector.getElem_ofFn, rowPass_dcBlock_getElem, dcOnly_getElem]
  by_cases h0 : k = 0
  · rw [if_pos h0, if_pos h0, if_pos (by omega)]
  · rw [if_neg h0, if_neg h0, if_neg (by omega)]

theorem columnPass_rowPass_dcBlock (d : Word) :
    columnPass (rowPass (dcBlock d)) = Vector.replicate 64 (clip8 (asr (d + 32768) 8)) := by
  apply Vector.ext
  intro i hi
  simp only [columnPass_getElem _ hi, columnOf_rowPass_dcBlock, bfly_dcOnly, Vector.getElem_replicate]

/-! TRANSFORM (R170, R180, R181). -/

/-- The samples of the block being decoded: those of the two passes, or of the fast path where no coefficient was written. -/
def Jd.blockSamples (j : Jd) : Block := if j.acAny then columnPass (rowPass j.tmp) else flatBlock j.tmp

theorem transform_eq (j : Jd) : transform j = { j with
    tmp := if j.acAny then rowPass j.tmp else j.tmp
    mcubuf := j.mcubuf.setIfInBounds j.blk j.blockSamples } := by
  unfold transform Jd.blockSamples
  split <;> rfl

/-- The samples after one block of `mcubuf` has been written. -/
theorem sample_of_setBlock {j k : Jd} {blk : Nat} {samples : Block} (h : blk < 6)
    (hk : k.mcubuf = j.mcubuf.setIfInBounds blk samples) (b i : Nat) :
    k.sample b i = if b = blk then samples.toList.getD i 0 else j.sample b i := by
  unfold Jd.sample
  rw [hk, Vector.toList_setIfInBounds]
  by_cases hb : b = blk
  · subst hb
    have hlt : b < (j.mcubuf.toList.set b samples).length := by simpa using h
    rw [if_pos rfl, List.getD_eq_getElem _ (Vector.replicate 64 0) hlt, List.getElem_set_self]
  · have hother : (j.mcubuf.toList.set blk samples)[b]? = j.mcubuf.toList[b]? := List.getElem?_set_ne (Ne.symm hb)
    simp only [if_neg hb, List.getD_eq_getElem?_getD, hother]

/-- The samplings of R125 have at most four luma blocks. -/
theorem Sampling.nby_le {j : Jd} (h : Sampling j) : j.nby ≤ 4 := by
  rcases h with ⟨hx, hy⟩ | ⟨hx, hy⟩ | ⟨hx, hy⟩ | ⟨hx, hy⟩ <;> rw [Jd.nby, hx, hy] <;> decide

theorem transform_sample {j : Jd} (hs : Sampling j) (hblk : j.blk < j.nby + 2) (b i : Nat) :
    (transform j).sample b i = if b = j.blk then j.blockSamples.toList.getD i 0 else j.sample b i := by
  have := hs.nby_le
  exact sample_of_setBlock (by omega) (by rw [transform_eq]) b i

/-- The next block's DC symbol, or the tile after the last block (R170). -/
theorem transformStep_eq (s : State) : transformStep s = s.setJd { transform s.jd with
    blk := if s.jd.blk + 1 < s.jd.nby + 2 then s.jd.blk + 1 else s.jd.blk
    mode := if s.jd.blk + 1 < s.jd.nby + 2 then .huffDc else .output
    hx := if s.jd.blk + 1 < s.jd.nby + 2 then s.jd.newReader else s.jd.hx } := by
  unfold transformStep
  rw [transform_eq]
  dsimp only
  by_cases h : s.jd.blk + 1 < s.jd.nby + 2
  · rw [if_pos h, if_pos h, if_pos h, if_pos (by exact h)]
    rfl
  · rw [if_neg h, if_neg h, if_neg h, if_neg (by exact h)]

theorem step_transform {s u : State} (hturn : s.turn = (.jd, u)) (hm : u.jd.mode = .transform) :
    step s = .next (transformStep u) := by
  refine step_of_moved ((fetch_jd hturn).trans ?_)
  rw [jdFetch, hm]

end Sys2Proof.Machine

namespace Sys2Proof.Proofs

open Sys2Proof.Machine

/-- Settles O36: the row pass spreads `tmp[0]` over row 0, and each column then holds one number again. -/
theorem fastPathIsExact : Obligations.FastPathIsExact := columnPass_rowPass_dcBlock

/-- Settles O37: the network, the passes entry by entry, and JD's step from TRANSFORM. -/
theorem transformStores : Obligations.TransformStores := by
  refine ⟨fun x => ?_, fun t r c => ⟨?_, ?_⟩, fun s u hturn hm hs hblk => ?_⟩
  · intro mul e0 e1 e2 e3 o0 o1 o2 o3 w v7 v6 v5 v4
    rw [bfly_toList, bflyEven_eq, bflyOdd_eq]
    rfl
  · rw [rowPass_at, rowOf_eq]
  · rw [columnPass_at, columnOf_eq, asr]
  · refine ⟨_, step_transform hturn hm, fun b i => ?_, ?_⟩
    · rw [transformStep_eq]
      exact transform_sample hs hblk b i
    · rw [transformStep_eq, transform_eq]
      rfl

end Sys2Proof.Proofs
end

section
/-! PROOFS of the statements about the MCU loop and the tiles of DECOMP (R202 to R212): the loop head, the part of an MCU
inside the image, the colour of a pixel, and the tile on its port with its answer. -/

namespace Sys2Proof.Machine

/-! The samplings (R125). -/

theorem Sampling.factors_le {j : Jd} (h : Sampling j) : j.msx.toNat ≤ 2 ∧ j.msy.toNat ≤ 2 := by
  rcases h with ⟨hx, hy⟩ | ⟨hx, hy⟩ | ⟨hx, hy⟩ | ⟨hx, hy⟩ <;> rw [hx, hy] <;> decide

theorem Jd.factors_pos {j : Jd} (h : j.nby ≠ 0) : 0 < j.msx.toNat ∧ 0 < j.msy.toNat :=
  ⟨Nat.pos_of_ne_zero (left_ne_zero_of_mul h), Nat.pos_of_ne_zero (right_ne_zero_of_mul h)⟩

/-! The part of an MCU inside the image (R204). -/

theorem tileWidth_eq_min (j : Jd) : tileWidth j = min j.mx (j.width.toNat - j.loopX.toNat) := by
  unfold tileWidth
  split <;> omega

theorem tileHeight_eq_min (j : Jd) : tileHeight j = min j.my (j.height.toNat - j.loopY.toNat) := by
  unfold tileHeight
  split <;> omega

/-- A tile has at most 16 x 16 pixels. -/
theorem tile_pixels_le {j : Jd} (h : Sampling j) : tileWidth j * tileHeight j ≤ 256 := by
  obtain ⟨hx, hy⟩ := h.factors_le
  have hw : tileWidth j ≤ 16 := (tileWidth_eq_min j).trans_le ((Nat.min_le_left _ _).trans (Nat.mul_le_mul_left 8 hx))
  have hh : tileHeight j ≤ 16 := (tileHeight_eq_min j).trans_le ((Nat.min_le_left _ _).trans (Nat.mul_le_mul_left 8 hy))
  exact Nat.mul_le_mul hw hh

theorem tileWidth_pos {j : Jd} (hn : j.nby ≠ 0) (hx : j.loopX.toNat < j.width.toNat) : 1 ≤ tileWidth j := by
  have := (Jd.factors_pos hn).1
  rw [tileWidth_eq_min, Jd.mx]
  omega

theorem tileHeight_pos {j : Jd} (hn : j.nby ≠ 0) (hy : j.loopY.toNat < j.height.toNat) : 1 ≤ tileHeight j := by
  have := (Jd.factors_pos hn).2
  rw [tileHeight_eq_min, Jd.my]
  omega

/-- A coordinate of the image fits in a halfword. -/
theorem coordinate_toNat {n : Nat} {size : Half} (h : n < size.toNat) : (BitVec.ofNat 16 n).toNat = n :=
  (BitVec.toNat_ofNat n 16).trans (Nat.mod_eq_of_lt (h.trans size.isLt))

theorem tile_right_lt {j : Jd} (hx : j.loopX.toNat < j.width.toNat) :
    j.loopX.toNat + tileWidth j - 1 < j.width.toNat := by
  rw [tileWidth_eq_min]
  omega

theorem tile_bottom_lt {j : Jd} (hy : j.loopY.toNat < j.height.toNat) :
    j.loopY.toNat + tileHeight j - 1 < j.height.toNat := by
  rw [tileHeight_eq_min]
  omega

theorem tileRect_toNat {j : Jd} (hx : j.loopX.toNat < j.width.toNat) (hy : j.loopY.toNat < j.height.toNat) :
    (tileRect j).left.toNat = j.loopX.toNat ∧ (tileRect j).top.toNat = j.loopY.toNat ∧
    (tileRect j).right.toNat = j.loopX.toNat + tileWidth j - 1 ∧
    (tileRect j).bottom.toNat = j.loopY.toNat + tileHeight j - 1 :=
  ⟨coordinate_toNat hx, coordinate_toNat hy, coordinate_toNat (tile_right_lt hx), coordinate_toNat (tile_bottom_lt hy)⟩

/-! The tiles of an image (R212). -/

/-- The first `n` pieces of length `m` of a line of length `w`, each cut at the end of the line. -/
theorem sum_pieces (w m n : Nat) : ((List.range n).map fun c => min m (w - c * m)).sum = min w (n * m) := by
  induction n with
  | zero => simp
  | succ n ih =>
    rw [List.sum_range_succ, ih, Nat.succ_mul]
    omega

/-- ⌈w/m⌉ pieces make up the line. -/
theorem sum_all_pieces (w : Nat) {m : Nat} (hm : 0 < m) :
    ((List.range ((w + m - 1) / m)).map fun c => min m (w - c * m)).sum = w := by
  have hcover : w ≤ (w + m - 1) / m * m := by
    rw [← Nat.ceilDiv_eq_add_pred_div, Nat.mul_comm]
    exact le_smul_ceilDiv hm
  rw [sum_pieces, Nat.min_eq_left hcover]

/-- Each of the ⌈w/m⌉ pieces begins on the line. -/
theorem piece_begins_inside {w m c : Nat} (hm : 0 < m) (hc : c ∈ List.range ((w + m - 1) / m)) : c * m < w := by
  rw [List.mem_range, ← Nat.ceilDiv_eq_add_pred_div] at hc
  by_contra hle
  exact hc.not_ge ((ceilDiv_le_iff_le_smul hm).mpr (by rw [smul_eq_mul, Nat.mul_comm]; exact Nat.le_of_not_lt hle))

/-- A corner inside the image fits in the 17 bits of the loop (R202). -/
theorem corner_toNat {n : Nat} {size : Half} (h : n < size.toNat) : (BitVec.ofNat 17 n).toNat = n :=
  (BitVec.toNat_ofNat n 17).trans (Nat.mod_eq_of_lt (h.trans (size.isLt.trans (by decide))))

/-- The loop at the MCU in column `c` and row `r` (R202). -/
def Jd.atMcu (j : Jd) (c r : Nat) : Jd := { j with loopX := BitVec.ofNat 17 (c * j.mx), loopY := BitVec.ofNat 17 (r * j.my) }

theorem tileWidth_atMcu {j : Jd} {c : Nat} (r : Nat) (h : c * j.mx < j.width.toNat) :
    tileWidth (j.atMcu c r) = min j.mx (j.width.toNat - c * j.mx) := by
  rw [tileWidth_eq_min]
  show min j.mx (j.width.toNat - (BitVec.ofNat 17 (c * j.mx)).toNat) = _
  rw [corner_toNat h]

theorem tileHeight_atMcu {j : Jd} (c : Nat) {r : Nat} (h : r * j.my < j.height.toNat) :
    tileHeight (j.atMcu c r) = min j.my (j.height.toNat - r * j.my) := by
  rw [tileHeight_eq_min]
  show min j.my (j.height.toNat - (BitVec.ofNat 17 (r * j.my)).toNat) = _
  rw [corner_toNat h]

/-- The tiles of one row of MCUs are as wide together as the image. -/
theorem sum_row_pixels {j : Jd} (hn : j.nby ≠ 0) {r : Nat} (hr : r * j.my < j.height.toNat) :
    ((List.range ((j.width.toNat + j.mx - 1) / j.mx)).map
      fun c => tileWidth (j.atMcu c r) * tileHeight (j.atMcu c r)).sum =
        j.width.toNat * min j.my (j.height.toNat - r * j.my) := by
  have hmx : 0 < j.mx := Nat.mul_pos (by decide) (Jd.factors_pos hn).1
  calc _ = ((List.range ((j.width.toNat + j.mx - 1) / j.mx)).map
        fun c => min j.mx (j.width.toNat - c * j.mx) * min j.my (j.height.toNat - r * j.my)).sum := by
        refine congrArg List.sum (List.map_congr_left fun c hc => ?_)
        rw [tileWidth_atMcu r (piece_begins_inside hmx hc), tileHeight_atMcu c hr]
    _ = _ := by rw [List.sum_map_mul_right, sum_all_pieces _ hmx]

theorem sum_image_pixels {j : Jd} (hn : j.nby ≠ 0) :
    ((List.range ((j.height.toNat + j.my - 1) / j.my)).map fun r =>
      ((List.range ((j.width.toNat + j.mx - 1) / j.mx)).map
        fun c => tileWidth (j.atMcu c r) * tileHeight (j.atMcu c r)).sum).sum = j.width.toNat * j.height.toNat := by
  have hmy : 0 < j.my := Nat.mul_pos (by decide) (Jd.factors_pos hn).2
  calc _ = ((List.range ((j.height.toNat + j.my - 1) / j.my)).map
        fun r => j.width.toNat * min j.my (j.height.toNat - r * j.my)).sum :=
        congrArg List.sum (List.map_congr_left fun r hr => sum_row_pixels hn (piece_begins_inside hmy hr))
    _ = _ := by rw [List.sum_map_mul_left, sum_all_pieces _ hmy]

/-! The tile on its port (R209). -/

theorem croppedTile_getElem (j : Jd) (i : Fin 256) : (croppedTile j)[i] =
    if i.val < tileWidth j * tileHeight j then j.pixel (i.val % tileWidth j) (i.val / tileWidth j) else j.tile[i] := by
  simp [croppedTile]

/-- The pixels that go out are those of the rectangle, row by row. -/
theorem croppedTile_take {j : Jd} (h : Sampling j) :
    (croppedTile j).toList.take (tileWidth j * tileHeight j) =
      (List.range (tileWidth j * tileHeight j)).map fun i => j.pixel (i % tileWidth j) (i / tileWidth j) := by
  have hle := tile_pixels_le h
  apply List.ext_getElem
  · simpa using hle
  · intro i _ hi
    have hlt : i < tileWidth j * tileHeight j := by simpa using hi
    have hpixel := croppedTile_getElem j ⟨i, hlt.trans_le hle⟩
    rw [if_pos hlt] at hpixel
    simpa using hpixel

theorem step_output {s u : State} (hturn : s.turn = (.jd, u)) (hm : u.jd.mode = .output) : step s = .next (outputStep u) := by
  refine step_of_moved ((fetch_jd hturn).trans ?_)
  rw [jdFetch, hm]

/-! The colour of a pixel (R206 to R208). -/

theorem ofInt_sub (w : Nat) (a b : Int) : BitVec.ofInt w (a - b) = BitVec.ofInt w a - BitVec.ofInt w b := by
  rw [Int.sub_eq_add_neg, BitVec.ofInt_add, BitVec.ofInt_neg, BitVec.sub_eq_add_neg]

/-- A sample as an int32. -/
theorem widen_sample (b : Byte) : b.setWidth 32 = BitVec.ofInt 32 b.toNat := by
  rw [BitVec.ofInt_natCast, BitVec.ofNat_toNat]

/-- A chroma sample about 0 as an int32. -/
theorem widen_chroma (b : Byte) : b.setWidth 32 - 128 = BitVec.ofInt 32 (b.toNat - 128) := by
  rw [ofInt_sub, ← widen_sample]
  rfl

/-- `tdiv` of a product that does not wrap. -/
theorem tdiv_ofInt {a : Int} (h1 : -2 ^ 31 ≤ a) (h2 : a < 2 ^ 31) :
    tdiv (BitVec.ofInt 32 a) 1024 = BitVec.ofInt 32 (Int.tdiv a 1024) := by
  have hdiv : (tdiv (BitVec.ofInt 32 a) 1024).toInt = Int.tdiv a 1024 := by
    rw [tdiv, BitVec.toInt_sdiv_of_ne_or_ne _ _ (.inr (by decide)), BitVec.toInt_ofInt_eq_self (by decide) h1 h2]
    rfl
  rw [← hdiv, BitVec.ofInt_toInt]

/-- A chroma difference from the neutral value 128. -/
def ChromaRange (c : Int) : Prop := -128 ≤ c ∧ c ≤ 127

theorem chromaRange_of_sample (b : Byte) : ChromaRange (b.toNat - 128) := by
  have := b.isLt
  unfold ChromaRange
  omega

/-- The colour in the integers: no product wraps (R206). -/
theorem yccToRgb_ofInt (y br bg bb : Int) {cb cr : Int} (hcb : ChromaRange cb) (hcr : ChromaRange cr) :
    yccToRgb (BitVec.ofInt 32 y) (BitVec.ofInt 32 cb) (BitVec.ofInt 32 cr)
        (BitVec.ofInt 32 br) (BitVec.ofInt 32 bg) (BitVec.ofInt 32 bb) =
      (clip8 (BitVec.ofInt 32 (y + Int.tdiv (1435 * cr) 1024 + br)),
       clip8 (BitVec.ofInt 32 (y - Int.tdiv (352 * cb + 731 * cr) 1024 + bg)),
       clip8 (BitVec.ofInt 32 (y + Int.tdiv (1814 * cb) 1024 + bb))) := by
  obtain ⟨hcb1, hcb2⟩ := hcb
  obtain ⟨hcr1, hcr2⟩ := hcr
  have hr : tdiv (1435 * BitVec.ofInt 32 cr) 1024 = BitVec.ofInt 32 (Int.tdiv (1435 * cr) 1024) := by
    rw [← tdiv_ofInt (by omega) (by omega), BitVec.ofInt_mul]
    rfl
  have hg : tdiv (352 * BitVec.ofInt 32 cb + 731 * BitVec.ofInt 32 cr) 1024 =
      BitVec.ofInt 32 (Int.tdiv (352 * cb + 731 * cr) 1024) := by
    rw [← tdiv_ofInt (by omega) (by omega), BitVec.ofInt_add, BitVec.ofInt_mul, BitVec.ofInt_mul]
    rfl
  have hb : tdiv (1814 * BitVec.ofInt 32 cb) 1024 = BitVec.ofInt 32 (Int.tdiv (1814 * cb) 1024) := by
    rw [← tdiv_ofInt (by omega) (by omega), BitVec.ofInt_mul]
    rfl
  rw [yccToRgb, hr, hg, hb]
  simp only [BitVec.ofInt_add, ofInt_sub]

/-- `clip8` is the clamp to 0..255 (R8). -/
theorem clip8_toNat (v : Word) :
    (clip8 v).toNat = if v.toInt < 0 then 0 else if 255 < v.toInt then 255 else v.toInt.toNat := by
  unfold clip8
  split_ifs with hneg hbig
  · rfl
  · rfl
  · have hval : v.toInt = v.toNat := BitVec.toInt_eq_toNat_of_lt (by have := BitVec.toInt_eq_toNat_cond v; omega)
    rw [BitVec.toNat_setWidth, hval, Int.toNat_natCast, Nat.mod_eq_of_lt (by omega)]

/-! The fields of a pixel word, each at its place (R208). -/

theorem red_field : ∀ r : Byte, (r &&& 0xF8).setWidth 16 <<< 8 = r.extractLsb' 3 5 ++ (0 : BitVec 6) ++ (0 : BitVec 5) := by
  decide

theorem green_field : ∀ g : Byte, (g &&& 0xFC).setWidth 16 <<< 3 = (0 : BitVec 5) ++ g.extractLsb' 2 6 ++ (0 : BitVec 5) := by
  decide

theorem blue_field : ∀ b : Byte, (b >>> 3).setWidth 16 = (0 : BitVec 5) ++ (0 : BitVec 6) ++ b.extractLsb' 3 5 := by
  decide

/-- Three words with one field each make up the word of the three fields. -/
theorem or_fields (x : BitVec 5) (y : BitVec 6) (z : BitVec 5) :
    x ++ (0 : BitVec 6) ++ (0 : BitVec 5) ||| (0 : BitVec 5) ++ y ++ (0 : BitVec 5) ||| (0 : BitVec 5) ++ (0 : BitVec 6) ++ z =
      x ++ y ++ z := by
  simp only [BitVec.or_append, BitVec.ofNat_eq_ofNat, BitVec.or_zero, BitVec.zero_or]

theorem rgb565_eq_fields (r g b : Byte) : rgb565 r g b = r.extractLsb' 3 5 ++ g.extractLsb' 2 6 ++ b.extractLsb' 3 5 := by
  rw [rgb565, red_field, green_field, blue_field]
  exact or_fields _ _ _

/-! The samples of a pixel (R205). -/

theorem luma_block_lt {msx msy ix iy : Nat} (hx : ix < 8 * msx) (hy : iy < 8 * msy) : ix / 8 + msx * (iy / 8) < msx * msy := by
  have hcol : ix / 8 < msx := Nat.div_lt_of_lt_mul hx
  have hrow : iy / 8 + 1 ≤ msy := Nat.div_lt_of_lt_mul hy
  calc ix / 8 + msx * (iy / 8) < msx * (iy / 8 + 1) := by rw [Nat.mul_succ]; omega
    _ ≤ msx * msy := Nat.mul_le_mul_left msx hrow

/-- A chroma block has one column for `f` columns of the MCU, and one row for `f` rows, for a factor `f` of 1 or 2. -/
theorem chroma_place_lt {f i : Nat} (h1 : 0 < f) (h2 : f ≤ 2) (hi : i < 8 * f) : i >>> (f - 1) < 8 := by
  obtain rfl | rfl : f = 1 ∨ f = 2 := by omega
  · exact hi
  · exact Nat.div_lt_of_lt_mul hi

theorem Jd.sample_eq_getElem (j : Jd) (b : Fin 6) (i : Fin 64) : j.sample b.val i.val = j.mcubuf[b][i] := by
  rw [Jd.sample, toList_getD_of_lt _ b.isLt, toList_getD_of_lt _ i.isLt]
  rfl

theorem Jd.lumaAt_eq {j : Jd} {ix iy : Nat} {b : Fin 6} {i : Fin 64} (hb : b.val = ix / 8 + j.msx.toNat * (iy / 8))
    (hi : i.val = 8 * (iy % 8) + ix % 8) : j.lumaAt ix iy = BitVec.ofInt 32 j.mcubuf[b][i].toNat := by
  rw [Jd.lumaAt, ← hb, ← hi, Jd.sample_eq_getElem, widen_sample]

theorem Jd.chromaAt_eq {j : Jd} {blk ix iy : Nat} {b : Fin 6} {k : Fin 64} (hb : b.val = blk)
    (hk : k.val = 8 * (iy >>> (j.msy.toNat - 1)) + ix >>> (j.msx.toNat - 1)) :
    j.chromaAt blk ix iy = BitVec.ofInt 32 (j.mcubuf[b][k].toNat - 128) := by
  subst hb
  rw [Jd.chromaAt, ← Nat.shiftRight_eq_div_pow, ← Nat.shiftRight_eq_div_pow, ← hk, Jd.sample_eq_getElem, widen_chroma]

theorem Jd.bayerTerm_eq (j : Jd) (ix iy ch : Nat) :
    j.bayerTerm ix iy ch = BitVec.ofInt 32 (if 1 < j.nby then Config.bayer ix iy ch else 0) := by
  unfold Jd.bayerTerm
  split <;> rfl

/-! The MCU loop head and the tile answer (R202, R210, R211). -/

/-- A step that is a part of a JD command goes on, ends the command, or faults. -/
theorem step_of_part {s : State} {x : Res Unit} (hf : fetch s = x.moved) : step s = x.finish := by
  cases x with
  | ok _ t => exact step_of_moved hf
  | ends r t => exact step_of_moved hf
  | fault f => exact step_of_fault hf

theorem step_mcu {s u : State} (hturn : s.turn = (.jd, u)) (hm : u.jd.mode = .mcu) : step s = (mcuStep u).finish := by
  refine step_of_part ((fetch_jd hturn).trans ?_)
  rw [jdFetch, hm]

theorem mcuStep_below {s : State} (h : s.jd.height.toNat ≤ s.jd.loopY.toNat) : mcuStep s = .ends .ok s :=
  if_neg h.not_gt

theorem mcuStep_right {s : State} (hy : s.jd.loopY.toNat < s.jd.height.toNat) (hx : s.jd.width.toNat ≤ s.jd.loopX.toNat) :
    mcuStep s = .ok () (s.setJd { s.jd with loopX := 0, loopY := s.jd.loopY + BitVec.ofNat 17 s.jd.my }) :=
  (if_pos hy).trans (if_neg hx.not_gt)

/-- JD_POS is the corner of the MCU that begins (R24). -/
def Jd.atCorner (j : Jd) : Jd := { j with posX := j.loopX.setWidth 16, posY := j.loopY.setWidth 16 }

/-- Inside the image an MCU begins, after its restart marker where NRST MCUs have passed. -/
theorem mcuStep_inside {s : State} (hy : s.jd.loopY.toNat < s.jd.height.toNat) (hx : s.jd.loopX.toNat < s.jd.width.toNat) :
    mcuStep s =
      if s.jd.nrst = 0 then .ok () (s.setJd (startBlock 0 s.jd.atCorner))
      else if s.jd.rst = s.jd.nrst then
        .ok () (s.setJd { s.jd.atCorner with rst := s.jd.rst + 1, rsc := s.jd.rsc + 1, mode := .restart })
      else .ok () (s.setJd (startBlock 0 { s.jd.atCorner with rst := s.jd.rst + 1 })) :=
  (if_pos hy).trans (if_pos hx)

theorem step_tile {s u : State} (hturn : s.turn = (.jd, u)) (hm : u.jd.mode = .tile) : step s = .next u := by
  refine step_of_moved ((fetch_jd hturn).trans ?_)
  rw [jdFetch, hm]

theorem answerTile_accept {s : State} (h : s.jd.mode = .tile) : answerTile true s = s.setJd { s.jd with
    phase := 2, loopX := s.jd.loopX + BitVec.ofNat 17 s.jd.mx, mode := .mcu } :=
  (if_pos h).trans (if_pos rfl)

theorem answerTile_cancel {s : State} (h : s.jd.mode = .tile) : answerTile false s = endCommand .intr s :=
  (if_pos h).trans (if_neg Bool.false_ne_true)

end Sys2Proof.Machine

namespace Sys2Proof.Proofs

open Sys2Proof.Machine

/-- Settles O39: each side of a tile is the smaller of the MCU's side and what the image has left, so that its bounds are
coordinates of the image. -/
theorem tileIsInsideImage : Obligations.TileIsInsideImage := by
  intro j hs hn hx hy
  obtain ⟨hleft, htop, hright, hbottom⟩ := tileRect_toNat hx hy
  exact ⟨tileWidth_eq_min j, tileHeight_eq_min j, tileWidth_pos hn hx, tileHeight_pos hn hy, tile_pixels_le hs,
    hleft, htop, hright, hbottom, hright.trans_lt (tile_right_lt hx), hbottom.trans_lt (tile_bottom_lt hy)⟩

/-- Settles O40: MCU_OUTPUT's step, and the cropped tile entry by entry. -/
theorem tileIsPutOut : Obligations.TileIsPutOut := by
  intro s u hturn hm hs
  refine ⟨outputStep u, step_output hturn hm, ?_, croppedTile_getElem u.jd⟩
  rw [← croppedTile_take hs]
  rfl

/-- Settles O41: the widths of a row's tiles sum to WIDTH, and the heights of the rows to HEIGHT. -/
theorem tilesCoverImage : Obligations.TilesCoverImage := fun _ _ hn => sum_image_pixels hn

/-- Settles O42: the samples by their places, the colour in the integers, and the pixel word field by field. -/
theorem pixelColour : Obligations.PixelColour := by
  refine ⟨fun yy cbs crs br bg bb => ?_, clip8_toNat, rgb565_eq_fields, fun j ix iy hs hn hix hiy => ?_⟩
  · rw [widen_chroma, widen_chroma, widen_sample]
    exact yccToRgb_ofInt _ _ _ _ (chromaRange_of_sample cbs) (chromaRange_of_sample crs)
  · obtain ⟨hxle, hyle⟩ := hs.factors_le
    obtain ⟨hxpos, hypos⟩ := Jd.factors_pos hn
    refine ⟨luma_block_lt hix hiy, chroma_place_lt hxpos hxle hix, chroma_place_lt hypos hyle hiy, ?_⟩
    intro b0 b1 b2 i k hb0 hb1 hb2 hi hk
    have hcb : j.chromaAt j.nby ix iy = _ := Jd.chromaAt_eq hb1 hk
    have hcr : j.chromaAt (j.nby + 1) ix iy = _ := Jd.chromaAt_eq hb2 hk
    simp only [Jd.pixel, Jd.lumaAt_eq hb0 hi, hcb, hcr, Jd.bayerTerm_eq,
      yccToRgb_ofInt _ _ _ _ (chromaRange_of_sample _) (chromaRange_of_sample _)]
    rfl

/-- Settles O38: the loop head by the place of its corner, and inside the image by the restart counter. -/
theorem mcuLoop : Obligations.McuLoop := by
  intro s u hturn hm
  refine ⟨fun hbelow => ?_, fun hy => ⟨fun hright => ?_, fun hx =>
    ⟨fun hnone => ?_, fun hsome hrun => ?_, fun hsome hdue => ?_⟩⟩⟩
  · rw [step_mcu hturn hm, mcuStep_below hbelow]
    rfl
  · rw [step_mcu hturn hm, mcuStep_right hy hright]
    rfl
  · rw [step_mcu hturn hm, mcuStep_inside hy hx, if_pos hnone]
    rfl
  · rw [step_mcu hturn hm, mcuStep_inside hy hx, if_neg hsome, if_neg hrun]
    rfl
  · rw [step_mcu hturn hm, mcuStep_inside hy hx, if_neg hsome, if_pos hdue]
    rfl

/-- Settles O43: JD's turn on the tile port, and the environment's answer. -/
theorem tileAnswer : Obligations.TileAnswer := by
  refine ⟨fun s u => step_tile, fun s u accept rest hturn hin => ?_⟩
  have hstep : step s = .next (answerTile accept { u with inputs := rest }) := step_of_moved (fetch_env hturn hin)
  refine ⟨fun hm => ?_, fun hm => ⟨?_, ?_⟩⟩
  · rw [hstep, answerTile_of_no_tile accept (by exact hm)]
  · rintro rfl
    rw [hstep, answerTile_accept (by exact hm)]
    rfl
  · rintro rfl
    rw [hstep, answerTile_cancel (by exact hm)]

end Sys2Proof.Proofs
end

section
/-! PROOFS of the statements about reassembly (R231 to R242) and the transmit port (R245, R246, R260): what a fragment that passes
its checks writes, what the last one completes, what TXP sends in its turn, and that the fragments sent reproduce the frame. -/

namespace Sys2Proof.Machine

/-- An event sets its bit and nothing else (R42). -/
theorem State.event_eq (s : State) (e : Event) :
    s.event e = { s with intr := { s.intr with status := s.intr.status ||| e.bit } } :=
  congrArg (fun status => s.setIntr { s.intr with status }) (intUpdate_no_clear _ _)

/-- Where no event comes, the bits stay (R42); the zero is spelled as the statements spell it. -/
theorem status_no_event (status : Byte) : status ||| 0x00 = status := BitVec.or_zero

/-! The RX write of some bytes (R236). -/

theorem rxWriteBytes_eq (b : Bool) (a : Nat) (vs : List Byte) (s : State) :
    ∃ m0 m1 raced, rxWriteBytes b a vs s = { s with rxbuf0 := m0, rxbuf1 := m1, raced := raced } := by
  rw [rxWriteBytes_frame]
  cases b
  · exact ⟨_, _, _, rfl⟩
  · exact ⟨_, _, _, rfl⟩

/-- Where no JD command runs, RX keeps no overwritten value (R69). -/
theorem rxWriteBytes_raced_of_not_busy (b : Bool) (a : Nat) (vs : List Byte) {s : State} (h : s.jd.busy = false) :
    (rxWriteBytes b a vs s).raced = s.raced := by
  induction vs generalizing a s with
  | nil => rfl
  | cons v vs ih =>
    have hone : (rxWrite b a v s).raced = s.raced := by simp [rxWrite_eq, h]
    have hbusy : (rxWrite b a v s).jd.busy = false := by simp [rxWrite_eq, h]
    rw [rxWriteBytes, ih _ hbusy, hone]

/-! A fragment that passes the checks of R233 and R235. -/

/-- A fragment with number `seq` and some payload passes its checks: no more bytes than a fragment holds (R233), all of them
in the datagram, and all of them inside the buffer (R235). -/
structure FragmentFits (base : Nat) (p : Packet) (s : State) (seq : Byte) (payload : List Byte) : Prop where
  body : p.body = seq :: payload
  size : p.size.toNat ≤ 245
  complete : p.size.toNat ≤ payload.length
  inside : base + seq.toNat * 245 + p.size.toNat ≤ s.params.rxBufSize

/-- The payload of a fragment in the buffer being filled, from `off` on (R236). -/
def storePayload (off : Nat) (p : Packet) (payload : List Byte) (s : State) : State :=
  rxWriteBytes s.rx.fillIdx off (payload.take p.size.toNat) s

section
variable {base : Nat} {p : Packet} {s : State} {seq : Byte} {payload : List Byte}

theorem FragmentFits.place (h : FragmentFits base p s seq payload) (complete : Nat → Nat → State → State) :
    placeFragment base complete p s =
      if p.final then
        complete (base + seq.toNat * 245) p.size.toNat (storePayload (base + seq.toNat * 245) p payload s)
      else storePayload (base + seq.toNat * 245) p payload s := by
  unfold placeFragment
  rw [h.body]
  exact (if_neg h.size.not_gt).trans ((if_neg h.complete.not_gt).trans (if_neg h.inside.not_gt))

theorem FragmentFits.place_middle (h : FragmentFits base p s seq payload) (hfinal : p.final = false)
    (complete : Nat → Nat → State → State) :
    placeFragment base complete p s = storePayload (base + seq.toNat * 245) p payload s := by
  rw [h.place, hfinal]
  rfl

theorem FragmentFits.place_last (h : FragmentFits base p s seq payload) (hfinal : p.final = true)
    (complete : Nat → Nat → State → State) :
    placeFragment base complete p s =
      complete (base + seq.toNat * 245) p.size.toNat (storePayload (base + seq.toNat * 245) p payload s) := by
  rw [h.place, hfinal]
  rfl

/-- Every byte after a payload is stored (R236). -/
theorem storePayload_rxByte (off : Nat) (hmem : MemInv s) (hlen : p.size.toNat ≤ payload.length) (b : Bool) (a : Nat) :
    (storePayload off p payload s).rxByte b a =
      if b = s.rx.fillIdx ∧ off ≤ a ∧ a < off + p.size.toNat then payload.getD (a - off) 0 else s.rxByte b a := by
  rw [storePayload, rxWriteBytes_rxByte _ _ _ _ (hmem.rxbuf _), List.length_take_of_le hlen]
  split
  · rename_i hin
    have hlt : a - off < p.size.toNat := by omega
    rw [List.getD_eq_getElem?_getD, List.getElem?_take_of_lt hlt, ← List.getD_eq_getElem?_getD]
  · rfl

theorem storePayload_eq (off : Nat) (p : Packet) (payload : List Byte) (s : State) :
    ∃ m0 m1 raced, storePayload off p payload s = { s with rxbuf0 := m0, rxbuf1 := m1, raced := raced } :=
  rxWriteBytes_eq _ _ _ s

theorem storePayload_rx (off : Nat) (p : Packet) (payload : List Byte) (s : State) :
    (storePayload off p payload s).rx = s.rx := by
  obtain ⟨_, _, _, h⟩ := storePayload_eq off p payload s
  rw [h]

theorem storePayload_env (off : Nat) (p : Packet) (payload : List Byte) (s : State) :
    (storePayload off p payload s).inputs = s.inputs ∧ (storePayload off p payload s).schedule = s.schedule := by
  obtain ⟨_, _, _, h⟩ := storePayload_eq off p payload s
  rw [h]
  exact ⟨rfl, rfl⟩

theorem storePayload_leavesJd (off : Nat) (p : Packet) (payload : List Byte) (s : State) :
    LeavesJd s (storePayload off p payload s) := rxWriteBytes_leavesJd _ _ _ s

theorem MemInv.storePayload (h : MemInv s) (off : Nat) (p : Packet) (payload : List Byte) :
    MemInv (storePayload off p payload s) := h.rxWriteBytes _ _ _

theorem storePayload_raced_of_not_busy (off : Nat) (p : Packet) (payload : List Byte) (h : s.jd.busy = false) :
    (Machine.storePayload off p payload s).raced = s.raced := rxWriteBytes_raced_of_not_busy _ _ _ h

end

/-! What the last fragment completes (R240, R241). -/

theorem completeHeader_eq (off size : Nat) (s : State) : ∃ m0 m1 raced, completeHeader off size s = { s with
    rx := { s.rx with hdrLen := BitVec.ofNat 24 (off + size), hdrValid := true }
    rxbuf0 := m0, rxbuf1 := m1, raced := raced } := by
  unfold completeHeader
  dsimp only
  obtain ⟨m0, m1, raced, h⟩ := rxWriteBytes_eq (!s.rx.fillIdx) 0 ((List.range (off + size)).map fun a =>
    s.rxByte s.rx.fillIdx a) s
  rw [h]
  exact ⟨m0, m1, raced, rfl⟩

/-- The captured header in the other buffer, and every other byte as before (R240). -/
theorem completeHeader_rxByte (off size : Nat) {s : State} (hmem : MemInv s) (b : Bool) (a : Nat) :
    (completeHeader off size s).rxByte b a =
      if b = (!s.rx.fillIdx) ∧ a < off + size then s.rxByte s.rx.fillIdx a else s.rxByte b a := by
  rw [completeHeader, State.setRx_rxByte, rxWriteBytes_rxByte _ _ _ _ (hmem.rxbuf _), List.length_map, List.length_range,
    Nat.zero_add, Nat.sub_zero]
  simp only [Nat.zero_le, true_and]
  split
  · rename_i hin
    simp [hin.2]
  · rfl

theorem completeHeader_raced_of_not_busy (off size : Nat) {s : State} (h : s.jd.busy = false) :
    (completeHeader off size s).raced = s.raced := rxWriteBytes_raced_of_not_busy _ _ _ h

/-- A frame of `len` bytes in the buffer being filled is recorded as ready, and asks for one ACK (R241, R242). -/
def Rx.frameReceived (r : Rx) (len : BitVec 24) : Rx := { r with
  frameLen0 := if r.fillIdx then r.frameLen0 else len
  frameLen1 := if r.fillIdx then len else r.frameLen1
  readyIdx := r.fillIdx
  overrun := r.overrun || r.frameReady
  frameReady := true
  ackPend := if r.ackPend = 255 then 255 else r.ackPend + 1 }

theorem Rx.setFrameLen_eq (r : Rx) (b : Bool) (n : BitVec 24) : r.setFrameLen b n = { r with
    frameLen0 := if b then r.frameLen0 else n
    frameLen1 := if b then n else r.frameLen1 } := by
  cases b <;> rfl

theorem completeFrame_eq (off size : Nat) (s : State) : completeFrame off size s = { s with
    rx := s.rx.frameReceived (BitVec.ofNat 24 (off + size))
    intr := { s.intr with status := s.intr.status ||| (if s.rx.frameReady then 0x04 else 0x00) ||| 0x02 } } := by
  unfold completeFrame
  dsimp only
  rw [Rx.setFrameLen_eq, State.event_eq]
  split
  · rw [State.event_eq]
    rfl
  · rw [status_no_event]
    rfl

@[simp] theorem completeFrame_rxByte (off size : Nat) (s : State) (b : Bool) (a : Nat) :
    (completeFrame off size s).rxByte b a = s.rxByte b a := by
  rw [completeFrame_eq]
  rfl

/-! What TXP sends (R245, R246, R260). -/

/-- FLAGS of a fragment: FINAL in bit 1, and not encrypted (R82, R246). -/
theorem fragment_flags : ∀ last : Bool,
    (0 : BitVec 6) ++ BitVec.ofBool last ++ BitVec.ofBool Config.cryptFlag = if last then 0x02 else (0x00 : Byte) := by decide

theorem fragDatagram_eq (frame : Bool) (total k : Nat) (source : Nat → Byte) : fragDatagram frame total k source =
    [if frame then 0x03 else 0x02, if fragLast total k then 0x02 else 0x00, BitVec.ofNat 8 (fragSize total k), 0x00,
      BitVec.ofNat 8 k] ++ (List.range (fragSize total k)).map fun a => source (k * 245 + a) := by
  rw [fragDatagram, hdrPack, fragment_flags]
  rfl

theorem sendFragment_eq (s : State) :
    let last := fragLast s.txc.fragS.toNat s.txc.fragK.toNat
    let d := fragDatagram s.txc.fragType s.txc.fragS.toNat s.txc.fragK.toNat s.txsrcByte
    sendFragment s = { s with
      txp := ⟨true, d⟩, out := .radioTx d :: s.out
      txc := { s.txc with fragK := s.txc.fragK + 1, fragBusy := s.txc.fragBusy && !last }
      intr := { s.intr with status := s.intr.status ||| (if last then 0x80 else 0x00) } } := by
  intro last d
  unfold sendFragment
  dsimp only
  cases hlast : fragLast s.txc.fragS.toNat s.txc.fragK.toNat with
  | true =>
    rw [if_pos rfl, State.event_eq, show last = true from hlast, Bool.not_true, Bool.and_false]
    rfl
  | false =>
    rw [if_neg Bool.false_ne_true, show last = false from hlast, Bool.not_false, Bool.and_true, if_neg Bool.false_ne_true,
      status_no_event]
    rfl

theorem step_txp {s u : State} (hturn : s.turn = (.txp, u)) : step s = .next (if txpReady u then txpStep u else u) := by
  refine step_of_moved ?_
  unfold fetch
  rw [hturn]
  rfl

section
variable {s : State}

theorem txpReady_of_busy (h : s.txp.busy = true) : txpReady s = false := by simp [txpReady, h]

theorem txpReady_iff (h : s.txp.busy = false) : txpReady s = true ↔ s.rx.ackPend ≠ 0 ∨ s.txc.fragBusy = true := by
  simp [txpReady, h]

theorem txpStep_fragment (h : s.rx.ackPend = 0) : txpStep s = sendFragment s := if_pos h

theorem txpStep_ack (h : s.rx.ackPend ≠ 0) (hfrag : s.txc.fragBusy = false) : txpStep s = sendAck s :=
  (if_neg h).trans (if_neg (by simp [hfrag]))

/-- Where both wait, either goes first (R260). -/
theorem txpStep_choice (h : s.rx.ackPend ≠ 0) (hfrag : s.txc.fragBusy = true) :
    txpStep s = sendAck s.draw ∨ txpStep s = sendFragment s.draw := by
  rw [txpStep, if_neg h, if_pos hfrag]
  split
  · exact .inl rfl
  · exact .inr rfl

end

/-! A fragment of the fragmenter as a packet (R245, R246). -/

/-- The bytes fragment `k` carries (R246). -/
def fragPayload (total k : Nat) (source : Nat → Byte) : List Byte :=
  (List.range (fragSize total k)).map fun a => source (k * 245 + a)

/-- The datagram of fragment `k` behind its TYPE byte (R246). -/
def fragPacket (total k : Nat) (source : Nat → Byte) : Packet where
  flags := if fragLast total k then 0x02 else 0x00
  size := BitVec.ofNat 8 (fragSize total k)
  rsv := 0
  body := BitVec.ofNat 8 k :: fragPayload total k source

theorem fragDatagram_eq_encodePacket (total k : Nat) (source : Nat → Byte) :
    fragDatagram true total k source = encodePacket 0x03 (fragPacket total k source) := fragDatagram_eq true total k source

section
variable {total k : Nat}

theorem fragSize_le (total k : Nat) : fragSize total k ≤ 245 := Nat.min_le_left _ _

theorem fragSize_add_le (h : k * 245 ≤ total) : k * 245 + fragSize total k ≤ total := by
  simp only [fragSize, Config.fragMax]
  omega

/-- The last of the `⌈total / 245⌉` fragments ends the frame (R245). -/
theorem fragSize_last (h : k + 1 = (total + 244) / 245) : k * 245 + fragSize total k = total := by
  simp only [fragSize, Config.fragMax]
  omega

/-- Every fragment before the last one is full (R245). -/
theorem fragSize_middle (h : k + 1 < (total + 244) / 245) : fragSize total k = 245 := by
  simp only [fragSize, Config.fragMax]
  omega

theorem fragLast_last (h : k + 1 = (total + 244) / 245) : fragLast total k = true := decide_eq_true (fragSize_last h)

theorem fragLast_middle (h : k + 1 < (total + 244) / 245) : fragLast total k = false := by
  refine decide_eq_false ?_
  simp only [fragSize_middle h, Config.fragMax]
  omega

theorem fragPayload_length (source : Nat → Byte) : (fragPayload total k source).length = fragSize total k := by
  rw [fragPayload, List.length_map, List.length_range]

theorem fragPayload_getD {i : Nat} (source : Nat → Byte) (h : i < fragSize total k) :
    (fragPayload total k source).getD i 0 = source (k * 245 + i) := by
  simp [fragPayload, h]

theorem fragPacket_size (source : Nat → Byte) : (fragPacket total k source).size.toNat = fragSize total k :=
  (BitVec.toNat_ofNat _ _).trans (Nat.mod_eq_of_lt ((fragSize_le total k).trans_lt (by decide)))

theorem fragPacket_final (source : Nat → Byte) : (fragPacket total k source).final = fragLast total k := by
  have hbit : ∀ last : Bool, (if last then 0x02 else 0x00 : Byte).getLsbD 1 = last := by decide
  exact hbit _

/-- A fragment's datagram is at most MTU bytes long (R231, R245). -/
theorem fragPacket_wf (source : Nat → Byte) : (fragPacket total k source).wf = true := by
  refine decide_eq_true ?_
  have hsize := fragSize_le total k
  simp only [fragPacket, List.length_cons, fragPayload_length, Config.hdrSize, Config.mtu]
  omega

/-- A fragment that ends inside the buffer passes RX's checks (R233, R235). -/
theorem fragPacket_fits {base : Nat} {s : State} (source : Nat → Byte) (hk : k < 256)
    (h : base + k * 245 + fragSize total k ≤ s.params.rxBufSize) :
    FragmentFits base (fragPacket total k source) s (BitVec.ofNat 8 k) (fragPayload total k source) where
  body := rfl
  size := (fragPacket_size source).trans_le (fragSize_le total k)
  complete := ((fragPacket_size source).trans (fragPayload_length source).symm).le
  inside := by rwa [fragPacket_size, BitVec.toNat_ofNat, Nat.mod_eq_of_lt hk]

end

/-! The fragments of a frame, one after the other (R247). -/

/-- RX has stored the first `n` bytes of a frame behind the captured header, and nothing else that it keeps has changed. -/
structure Received (s t : State) (n : Nat) (source : Nat → Byte) : Prop where
  mem : MemInv t
  params : t.params = s.params
  rx : t.rx = s.rx
  bytes : ∀ b a, t.rxByte b a =
    if b = s.rx.fillIdx ∧ s.rx.hdrLen.toNat ≤ a ∧ a < s.rx.hdrLen.toNat + n then source (a - s.rx.hdrLen.toNat)
    else s.rxByte b a

section
variable {s t : State} {n total k : Nat} {source : Nat → Byte} {rest : List Input} {sched : List Turn}

theorem Received.nothing (h : MemInv s) (source : Nat → Byte) : Received s s 0 source where
  mem := h
  params := rfl
  rx := rfl
  bytes b a := (if_neg (by omega)).symm

/-- What has been received does not depend on the inputs and turns still to come. -/
theorem Received.of_inputs (h : Received s t n source) (rest : List Input) (sched : List Turn) :
    Received s { t with inputs := rest, schedule := sched } n source := ⟨h.mem, h.params, h.rx, h.bytes⟩

/-- The payload of the next fragment extends what has been received (R234, R236). -/
theorem Received.store (h : Received s t (k * 245) source) :
    Received s (storePayload (s.rx.hdrLen.toNat + k * 245) (fragPacket total k source) (fragPayload total k source) t)
      (k * 245 + fragSize total k) source where
  mem := h.mem.storePayload _ _ _
  params := (storePayload_leavesJd ..).params.trans h.params
  rx := (storePayload_rx ..).trans h.rx
  bytes b a := by
    rw [storePayload_rxByte _ h.mem ((fragPacket_size source).trans (fragPayload_length source).symm).le, h.bytes,
      fragPacket_size, h.rx]
    by_cases hnew : b = s.rx.fillIdx ∧ s.rx.hdrLen.toNat + k * 245 ≤ a ∧ a < s.rx.hdrLen.toNat + k * 245 + fragSize total k
    · have hplace : k * 245 + (a - (s.rx.hdrLen.toNat + k * 245)) = a - s.rx.hdrLen.toNat := by omega
      rw [if_pos hnew, if_pos ⟨hnew.1, by omega, by omega⟩, fragPayload_getD source (by omega), hplace]
    · rw [if_neg hnew]
      refine if_congr (and_congr_right fun hb => ?_) rfl rfl
      have hold : ¬ (s.rx.hdrLen.toNat + k * 245 ≤ a ∧ a < s.rx.hdrLen.toNat + k * 245 + fragSize total k) :=
        fun hin => hnew ⟨hb, hin⟩
      omega

/-- A fragment received in the environment's turn is placed behind the captured header (R231, R234). -/
theorem step_receives_fragment (hsched : t.schedule = .env :: sched)
    (hin : t.inputs = .radio (fragDatagram true total k source) :: rest) : step t =
      .next (placeFragment t.rx.hdrLen.toNat completeFrame (fragPacket total k source)
        { t with inputs := rest, schedule := sched }) := by
  have hturn : t.turn = (.env, { t with schedule := sched }) := by rw [State.turn, hsched]
  have hdecode : decode .radio (fragDatagram true total k source) = .ok (.pktFrameData (fragPacket total k source)) := by
    rw [fragDatagram_eq_encodePacket, decode_encodePacket _ (fragPacket_wf source)]
    rfl
  exact (Proofs.stepRunsDeliveredInstruction t _ _ rest _ hturn hin).1 _ rfl hdecode

/-- The next fragment extends what has been received, and the last one completes the frame. -/
theorem Received.step (h : Received s t (k * 245) source) (hk : k < 256) (hle : k * 245 ≤ total)
    (hinside : s.rx.hdrLen.toNat + total ≤ s.params.rxBufSize) (hsched : t.schedule = .env :: sched)
    (hin : t.inputs = .radio (fragDatagram true total k source) :: rest) :
    ∃ u, Received s u (k * 245 + fragSize total k) source ∧ u.inputs = rest ∧ u.schedule = sched ∧
      step t = .next
        (if fragLast total k then completeFrame (s.rx.hdrLen.toNat + k * 245) (fragSize total k) u else u) := by
  have hmoved := h.of_inputs rest sched
  have hfits : FragmentFits s.rx.hdrLen.toNat (fragPacket total k source) { t with inputs := rest, schedule := sched }
      (BitVec.ofNat 8 k) (fragPayload total k source) := by
    refine fragPacket_fits source hk ?_
    have hend := fragSize_add_le hle
    rw [hmoved.params]
    omega
  have hplace := hfits.place completeFrame
  rw [BitVec.toNat_ofNat, Nat.mod_eq_of_lt hk, fragPacket_final, fragPacket_size] at hplace
  have hhdr : t.rx.hdrLen = s.rx.hdrLen := by rw [h.rx]
  obtain ⟨hinputs, hschedule⟩ := storePayload_env (s.rx.hdrLen.toNat + k * 245) (fragPacket total k source)
    (fragPayload total k source) { t with inputs := rest, schedule := sched }
  exact ⟨_, hmoved.store, hinputs, hschedule, by rw [step_receives_fragment hsched hin, hhdr, hplace]⟩

/-- The `n + 1` fragments that are left, from fragment `k` on, complete the frame (R247). -/
theorem Received.steps (htotal : total ≤ 62720) (hinside : s.rx.hdrLen.toNat + total ≤ s.params.rxBufSize)
    (hcount : k + (n + 1) = (total + 244) / 245) (h : Received s t (k * 245) source)
    (hin : t.inputs = ((List.range' k (n + 1)).map fun k => .radio (fragDatagram true total k source)) ++ rest)
    (hsched : t.schedule = List.replicate (n + 1) .env ++ sched) :
    ∃ u, Received s u total source ∧ u.inputs = rest ∧ u.schedule = sched ∧
      steps (n + 1) t = some (completeFrame s.rx.hdrLen.toNat total u) := by
  induction n generalizing k t with
  | zero =>
    obtain ⟨u, hu, huin, husched, hstep⟩ := h.step (by omega) (by omega) hinside hsched hin
    have hsize := fragSize_last hcount
    have hend : completeFrame (s.rx.hdrLen.toNat + k * 245) (fragSize total k) u =
        completeFrame s.rx.hdrLen.toNat total u := by
      rw [completeFrame_eq, completeFrame_eq, Nat.add_assoc, hsize]
    rw [fragLast_last hcount, if_pos rfl, hend] at hstep
    exact ⟨u, hsize ▸ hu, huin, husched, steps_one hstep⟩
  | succ n ih =>
    rw [List.range'_succ] at hin
    obtain ⟨u, hu, huin, husched, hstep⟩ := h.step (by omega) (by omega) hinside hsched hin
    have hmiddle : k + 1 < (total + 244) / 245 := by omega
    rw [fragLast_middle hmiddle, if_neg Bool.false_ne_true] at hstep
    rw [fragSize_middle hmiddle, ← Nat.succ_mul] at hu
    obtain ⟨v, hv, hvin, hvsched, hsteps⟩ := ih (by omega) hu huin husched
    refine ⟨v, hv, hvin, hvsched, ?_⟩
    rw [Machine.steps, hstep]
    exact hsteps

end

end Sys2Proof.Machine

namespace Sys2Proof.Proofs

open Sys2Proof.Machine

/-- Settles O11: the fragment passes its checks, and storing its payload is all it does. -/
theorem fragmentPlaced : Obligations.FragmentPlaced := by
  intro i base p s seq payload hmem hi hbody hsize hcomplete hinside hfinal
  have hfits : FragmentFits base p s seq payload := ⟨hbody, hsize, hcomplete, hinside⟩
  have hexec : exec i s = .next (storePayload (base + seq.toNat * 245) p payload s) := by
    rcases hi with ⟨rfl, rfl⟩ | ⟨rfl, rfl⟩
    · exact congrArg Host.Outcome.next (hfits.place_middle hfinal completeHeader)
    · exact congrArg Host.Outcome.next (hfits.place_middle hfinal completeFrame)
  refine ⟨_, hexec, storePayload_rxByte _ hmem hcomplete, ?_, storePayload_raced_of_not_busy _ _ _⟩
  obtain ⟨m0, m1, raced, hstore⟩ := storePayload_eq (base + seq.toNat * 245) p payload s
  rw [hstore]

/-- Settles O12: the payload is stored, and completing the header copies it to the other buffer. -/
theorem headerCompletes : Obligations.HeaderCompletes := by
  intro p s seq payload hmem hbody hsize hcomplete hinside hfinal
  have hfits : FragmentFits 0 p s seq payload := ⟨hbody, hsize, hcomplete, by rwa [Nat.zero_add]⟩
  have hplace := hfits.place_last hfinal completeHeader
  rw [Nat.zero_add] at hplace
  have hbytes := storePayload_rxByte (seq.toNat * 245) hmem hcomplete
  have hmid := hmem.storePayload (seq.toNat * 245) p payload
  have hcopy := completeHeader_rxByte (seq.toNat * 245) p.size.toNat hmid
  rw [storePayload_rx] at hcopy
  refine ⟨_, congrArg Host.Outcome.next hplace, fun a => ?_, fun a => ?_, ?_, fun hidle => ?_⟩
  · rw [hcopy, hbytes]
    simp
  · rw [hcopy, hcopy, hbytes (!s.rx.fillIdx)]
    simp
  · obtain ⟨_, _, _, hdone⟩ := completeHeader_eq (seq.toNat * 245) p.size.toNat (storePayload (seq.toNat * 245) p payload s)
    obtain ⟨_, _, _, hstore⟩ := storePayload_eq (seq.toNat * 245) p payload s
    rw [hdone, hstore]
  · have hmid : (storePayload (seq.toNat * 245) p payload s).jd.busy = false := by rwa [(storePayload_leavesJd ..).jd]
    exact (completeHeader_raced_of_not_busy _ _ hmid).trans (storePayload_raced_of_not_busy _ _ _ hidle)

/-- Settles O13: the payload is stored, and completing the frame writes no byte. -/
theorem frameCompletes : Obligations.FrameCompletes := by
  intro p s seq payload hmem hbody hsize hcomplete hinside hfinal off len
  have hfits : FragmentFits s.rx.hdrLen.toNat p s seq payload := ⟨hbody, hsize, hcomplete, hinside⟩
  refine ⟨_, congrArg Host.Outcome.next (hfits.place_last hfinal completeFrame), fun b a => ?_, ?_⟩
  · rw [completeFrame_rxByte]
    exact storePayload_rxByte _ hmem hcomplete b a
  · obtain ⟨_, _, _, hstore⟩ := storePayload_eq off p payload s
    rw [completeFrame_eq, hstore]
    rfl

/-- Settles O45: TXP is ready where a datagram waits and none is in flight, and then sends one that waits. -/
theorem transmitPort : Obligations.TransmitPort := by
  intro s u hturn ack k n last d frag
  have hack (v : State) : sendAck v = ack v := rfl
  have hfrag (draws : Nat) : sendFragment { u with draws := draws } = frag { u with draws := draws } := by
    have hd : d = fragDatagram u.txc.fragType u.txc.fragS.toNat k u.txsrcByte := (fragDatagram_eq ..).symm
    simp only [frag, hd]
    exact sendFragment_eq _
  rw [step_txp hturn]
  refine ⟨fun hbusy => ?_, fun hfree => ⟨fun hnone hidle => ?_, fun hsome hidle => ?_, fun hnone hsending => ?_,
    fun hsome hsending => ?_⟩⟩
  · rw [txpReady_of_busy hbusy]
    rfl
  · have hrest : ¬ txpReady u = true := by simp [txpReady_iff hfree, hnone, hidle]
    rw [if_neg hrest]
  · rw [if_pos ((txpReady_iff hfree).mpr (.inl hsome)), txpStep_ack hsome hidle, hack]
  · rw [if_pos ((txpReady_iff hfree).mpr (.inr hsending)), txpStep_fragment hnone]
    exact congrArg Host.Outcome.next (hfrag u.draws)
  · rw [if_pos ((txpReady_iff hfree).mpr (.inl hsome))]
    refine (txpStep_choice hsome hsending).imp (fun h => ?_) fun h => ?_
    · rw [h, hack]
      rfl
    · rw [h]
      exact congrArg Host.Outcome.next (hfrag (u.draws + 1))

/-- Settles O47: fragment by fragment the frame stands behind the header, and the last fragment completes it. -/
theorem fragmentsReassemble : Obligations.FragmentsReassemble := by
  intro s total source rest sched hmem hpos htotal hinside count hin hsched
  obtain ⟨n, hn⟩ : ∃ n, count = n + 1 := Nat.exists_eq_add_one.mpr (by omega)
  rw [hn] at hin hsched ⊢
  rw [List.range_eq_range'] at hin
  obtain ⟨u, hu, huin, husched, hsteps⟩ := Received.steps (k := 0) htotal hinside (by omega)
    (Nat.zero_mul 245 ▸ Received.nothing hmem source) hin hsched
  refine ⟨_, hsteps, ?_, ?_, fun b a => ?_, ?_⟩
  · rw [completeFrame_eq]
    exact huin
  · rw [completeFrame_eq]
    exact husched
  · rw [completeFrame_rxByte]
    exact hu.bytes b a
  · rw [completeFrame_eq, hu.rx]
    rfl

end Sys2Proof.Proofs
end

section
/-! PROOFS of the statements about the credit (R263 to R265), the fragmenter's start (R244), the watchdog's TICK (R266), the
transport's completion (R261), and that no datagram is sent while one is in flight (R260). -/

namespace Sys2Proof.Machine

/-! A credit is released (R265). -/

section
variable {s : State}

theorem release_of_no_request (h : s.txc.captureWait = false) : release s = { s with
    txc := { s.txc with credit := BitVec.ofNat 3 (min (s.txc.credit.toNat + 1) 5) } } :=
  if_neg (ne_true_of_eq_false h)

/-- A waiting request takes the credit at once (R265). -/
theorem release_of_request (h : s.txc.captureWait = true) : release s = { s with
    txc := { s.txc with credit := BitVec.ofNat 3 (min (s.txc.credit.toNat + 1) 5 - 1), captureWait := false }
    intr := { s.intr with status := s.intr.status ||| 0x40 } } :=
  (if_pos h).trans (State.event_eq _ .captureGo)

theorem exec_pktAck {p : Packet} (h : p.size.toNat ≤ p.body.length) : exec (.pktAck p) s = .next (txcAck s) :=
  congrArg Host.Outcome.next (if_neg (Nat.not_lt.mpr h))

/-! The capture request (R264) and the fragmenter's start (R244). -/

theorem exec_txcCaptureReq_ignored (h : s.txc.captureWait = true) : exec .txcCaptureReq s = .next s := if_pos h

theorem exec_txcCaptureReq_granted (h : s.txc.captureWait = false) (hcredit : s.txc.credit ≠ 0) :
    exec .txcCaptureReq s = .next ((s.setTxc { s.txc with credit := s.txc.credit - 1 }).event .captureGo) :=
  (if_neg (ne_true_of_eq_false h)).trans (if_neg hcredit)

theorem exec_txcCaptureReq_waits (h : s.txc.captureWait = false) (hcredit : s.txc.credit = 0) :
    exec .txcCaptureReq s = .next (s.setTxc { s.txc with captureWait := true }) :=
  (if_neg (ne_true_of_eq_false h)).trans (if_pos hcredit)

theorem exec_txcFragStart_empty (frame : Bool) (h : s.txc.fragBusy = false) (hlen : s.txc.fragLen = 0) :
    exec (.txcFragStart frame) s =
      .next ((s.setTxc { s.txc with fragS := s.txc.fragLen, fragK := 0, fragType := frame }).event .fragDone) :=
  (if_neg (ne_true_of_eq_false h)).trans (if_pos hlen)

theorem exec_txcFragStart_loads (frame : Bool) (h : s.txc.fragBusy = false) (hlen : s.txc.fragLen ≠ 0) :
    exec (.txcFragStart frame) s = .next (s.setTxc { s.txc with
      fragS := s.txc.fragLen, fragK := 0, fragType := frame, fragBusy := true }) :=
  (if_neg (ne_true_of_eq_false h)).trans (if_neg hlen)

/-! The watchdog's TICK (R266) and the transport's completion (R261). -/

theorem tick_below_period (h : (s.txc.wdtCnt + 1).toNat < s.period.toNat) :
    tick s = s.setTxc { s.txc with wdtCnt := s.txc.wdtCnt + 1 } :=
  if_neg (Nat.not_le.mpr h)

/-- At the period in force the watchdog starts again and fires (R266). -/
theorem tick_at_period (h : s.period.toNat ≤ (s.txc.wdtCnt + 1).toNat) : tick s = release { s with
    txc := { s.txc with wdtCnt := 0 }
    intr := { s.intr with status := s.intr.status ||| 0x10 } } :=
  (if_pos h).trans (congrArg release (State.event_eq _ .wdtFire))

theorem txDone_of_busy (h : s.txp.busy = true) : txDone s = { s with
    txp := { s.txp with busy := false }
    intr := { s.intr with status := s.intr.status ||| 0x20 } } :=
  (if_pos h).trans (State.event_eq _ .txDone)

/-- In the environment's turn an input that is no instruction moves the block. -/
theorem step_env_moved {u v : State} {input : Input} {rest : List Input} (hturn : s.turn = (.env, u))
    (hin : u.inputs = input :: rest) (hmove : inputFetch input { u with inputs := rest } = .moved v) : step s = .next v :=
  step_of_moved ((fetch_env hturn hin).trans hmove)

end

/-! What is put on RADIO_TX. Only a send of TXP adds a datagram to it; the other outputs are no datagrams, and every other
operation leaves what was put out. -/

theorem radioSent_of_out {s t : State} (h : t.out = s.out) : t.radioSent = s.radioSent := by
  rw [State.radioSent, h]
  rfl

/-- A tile is no datagram (R209). -/
theorem JdTouches.radioSent {s t : State} (h : JdTouches s t) : t.radioSent = s.radioSent := by
  rcases h.out with hsame | ⟨r, px, htile⟩
  · exact radioSent_of_out hsame
  · rw [State.radioSent, htile]
    rfl

theorem rxWriteBytes_radioSent (b : Bool) (a : Nat) (vs : List Byte) (s : State) :
    (rxWriteBytes b a vs s).radioSent = s.radioSent := by
  obtain ⟨_, _, _, h⟩ := rxWriteBytes_eq b a vs s
  rw [h]
  rfl

theorem completeHeader_radioSent (off size : Nat) (s : State) : (completeHeader off size s).radioSent = s.radioSent := by
  obtain ⟨_, _, _, h⟩ := completeHeader_eq off size s
  rw [h]
  rfl

theorem completeFrame_radioSent (off size : Nat) (s : State) : (completeFrame off size s).radioSent = s.radioSent := by
  rw [completeFrame_eq]
  rfl

theorem placeFragment_radioSent (base : Nat) {complete : Nat → Nat → State → State}
    (hc : ∀ off size u, (complete off size u).radioSent = u.radioSent) (p : Packet) (s : State) :
    (placeFragment base complete p s).radioSent = s.radioSent := by
  rcases placeFragment_cases base complete p s with ⟨r, h⟩ | ⟨off, size, vs, -, h | h⟩
  · rw [h]; rfl
  · rw [h, rxWriteBytes_radioSent]
  · rw [h, hc, rxWriteBytes_radioSent]

/-- A control packet goes to CTRL_OUT (R237). -/
theorem passThrough_radioSent (t : Byte) (p : Packet) (s : State) : (passThrough t p s).radioSent = s.radioSent := by
  unfold passThrough
  split <;> rfl

theorem release_radioSent (s : State) : (release s).radioSent = s.radioSent := by
  rw [release_frame]
  rfl

theorem tick_radioSent (s : State) : (tick s).radioSent = s.radioSent := by
  rcases Nat.lt_or_ge (s.txc.wdtCnt + 1).toNat s.period.toNat with h | h
  · rw [tick_below_period h]
    rfl
  · rw [tick_at_period h, release_radioSent]
    rfl

theorem txDone_radioSent (s : State) : (txDone s).radioSent = s.radioSent := by
  unfold txDone
  split <;> rfl

theorem decompStart_radioSent (s : State) : (decompStart s).radioSent = s.radioSent := by
  unfold decompStart
  split <;> rfl

theorem jdCommand_radioSent {run : State → State} (hrun : ∀ u, (run u).radioSent = u.radioSent) {s t : State}
    (h : jdCommand run s = .next t) : t.radioSent = s.radioSent := by
  unfold jdCommand at h
  split at h
  · cases h; rfl
  · cases h; exact hrun _

theorem take_radioSent (s : State) : (take s).radioSent = s.radioSent := by
  unfold take
  split <;> rfl

theorem regWrite_radioSent (off : Nat) (w : Word) (s : State) : (regWrite off w s).radioSent = s.radioSent := by
  unfold regWrite
  split_ifs <;> rfl

theorem answerTile_radioSent (accept : Bool) (s : State) : (answerTile accept s).radioSent = s.radioSent := by
  unfold answerTile
  split_ifs <;> rfl

theorem cameraWrite_radioSent (a : Nat) (vs : List Byte) (s : State) : (cameraWrite a vs s).radioSent = s.radioSent := by
  rw [cameraWrite_frame]
  rfl

/-- No instruction sends a datagram: an ACK and a fragment wait for TXP's turn (R260). -/
theorem exec_radioSent {i : Instr} {s t : State} (h : exec i s = .next t) : t.radioSent = s.radioSent := by
  cases i with
  | pktAck p =>
    cases h
    split
    · rfl
    · exact release_radioSent _
  | pktInitialHeaderData p => cases h; exact placeFragment_radioSent _ completeHeader_radioSent p s
  | pktFrameData p => cases h; exact placeFragment_radioSent _ completeFrame_radioSent p s
  | pktNak p | pktTelemetry p | pktPing p | pktSwitchChannel p | pktTxPowerUpdate p | pktEnableLed p =>
    cases h; exact passThrough_radioSent _ p s
  | jdPrepare buf => exact jdCommand_radioSent (run := prepareInit buf) (fun _ => rfl) h
  | jdDecomp buf => exact jdCommand_radioSent decompStart_radioSent h
  | rxTake clr =>
    cases h
    split <;> exact take_radioSent s
  | txcCaptureReq =>
    change execTxcCaptureReq s = .next t at h
    unfold execTxcCaptureReq at h
    split_ifs at h <;> cases h <;> rfl
  | txcFragStart frame =>
    change execTxcFragStart frame s = .next t at h
    unfold execTxcFragStart at h
    dsimp only at h
    split_ifs at h <;> cases h <;> rfl
  | pktUnknown | jdNop | jdReserved | rxClrSticky | intW1c => cases h; rfl
  | _ => exact (exec_jdMove rfl h).touches.radioSent

/-- No input of the environment makes the block send at once. -/
theorem inputFetch_radioSent (input : Input) (s : State) :
    (inputFetch input s).Holds fun v => v.radioSent = s.radioSent := by
  cases input with
  | radio d =>
    show (radioFetch d s).Holds _
    unfold radioFetch
    split <;> rfl
  | regWrite off n w =>
    show (writeFetch off n w s).Holds _
    unfold writeFetch
    split_ifs
    · split
      · rfl
      · exact regWrite_radioSent off w s
    · trivial
  | regRead off n =>
    unfold inputFetch
    dsimp only
    split
    · rfl
    · trivial
  | tileAnswer accept => exact answerTile_radioSent accept s
  | txdone => exact txDone_radioSent s
  | tick => exact tick_radioSent s
  | camera a bytes => exact cameraWrite_radioSent a bytes s
  | reset => rfl

theorem envFetch_radioSent (s : State) : (envFetch s).Holds fun v => v.radioSent = s.radioSent := by
  unfold envFetch
  split
  · rfl
  · exact inputFetch_radioSent _ { s with inputs := _ }

theorem step_env_radioSent {s t u : State} (hturn : s.turn = (.env, u)) (h : step s = .next t) :
    t.radioSent = u.radioSent := by
  have hfetch : fetch s = envFetch u := by
    unfold fetch
    rw [hturn]
    rfl
  exact step_holds (hfetch ▸ envFetch_radioSent u) (fun hv he => (exec_radioSent he).trans hv) h

/-! A send of TXP (R260). -/

/-- `t` is `s` with one datagram more on RADIO_TX, which is in flight. -/
structure SendsOne (s t : State) : Prop where
  busy : t.txp.busy = true
  sent : t.radioSent = t.txp.inflight :: s.radioSent

theorem sendAck_sendsOne (s : State) : SendsOne s (sendAck s) := ⟨rfl, rfl⟩

theorem sendFragment_sendsOne (s : State) : SendsOne s (sendFragment s) := by
  rw [sendFragment_eq]
  exact ⟨rfl, rfl⟩

/-- The free choice before a send puts nothing on RADIO_TX. -/
theorem SendsOne.of_draw {s t : State} (h : SendsOne s.draw t) : SendsOne s t := ⟨h.busy, h.sent⟩

theorem txpStep_sendsOne (s : State) : SendsOne s (txpStep s) := by
  unfold txpStep
  split_ifs
  · exact sendFragment_sendsOne s
  · exact (sendAck_sendsOne _).of_draw
  · exact (sendFragment_sendsOne _).of_draw
  · exact sendAck_sendsOne s

theorem not_busy_of_txpReady {s : State} (h : txpReady s = true) : s.txp.busy = false :=
  eq_false_of_ne_true fun hbusy => absurd h (ne_true_of_eq_false (txpReady_of_busy hbusy))

end Sys2Proof.Machine

namespace Sys2Proof.Proofs

open Sys2Proof.Machine

/-- Settles O46: of the three turns only TXP's sends, and TXP is ready only while nothing is in flight. -/
theorem stopAndWait : Obligations.StopAndWait := by
  intro s t h
  have hsent : s.turn.2.radioSent = s.radioSent := by rw [s.turn_schedule]; rfl
  have htxp : s.turn.2.txp = s.txp := by rw [s.turn_schedule]
  rcases hturn : s.turn with ⟨turn, u⟩
  rw [hturn] at hsent htxp
  cases turn with
  | env => exact .inl ((step_env_radioSent hturn h).trans hsent)
  | jd =>
    have htouches := step_jdTouches (congrArg Prod.fst hturn) h
    rw [hturn] at htouches
    exact .inl (htouches.radioSent.trans hsent)
  | txp =>
    rw [step_txp hturn] at h
    cases h
    split
    next hready =>
      have hone := txpStep_sendsOne u
      exact .inr ⟨htxp ▸ not_busy_of_txpReady hready, hone.busy, hsent ▸ hone.sent⟩
    next => exact .inl hsent

/-- Settles O10: an ACK that holds its payload restarts the watchdog in the steady period and releases a credit. -/
theorem ackReleasesCredit : Obligations.AckReleasesCredit := by
  intro p s hfits c
  refine ⟨fun hwait => ?_, fun hwait => ?_⟩
  · rw [exec_pktAck hfits, txcAck, release_of_no_request (by exact hwait)]
    rfl
  · rw [exec_pktAck hfits, txcAck, release_of_request (by exact hwait)]
    rfl

/-- Settles O17: each clause is a branch of the request or of the start, and an event sets its own bit only. -/
theorem transmitterCommands : Obligations.TransmitterCommands := by
  intro s
  refine ⟨exec_txcCaptureReq_ignored, fun hwait hcredit => ?_, exec_txcCaptureReq_waits,
    fun frame hidle => ⟨fun hempty => ?_, exec_txcFragStart_loads frame hidle⟩⟩
  · rw [exec_txcCaptureReq_granted hwait hcredit, State.event_eq]
    rfl
  · rw [exec_txcFragStart_empty frame hidle hempty, State.event_eq, hempty]
    rfl

/-- Settles O48: the completion and the TICK move the block as they are fetched, and a TICK at the period releases a credit. -/
theorem completionAndTick : Obligations.CompletionAndTick := by
  intro s u rest hturn v period c
  refine ⟨fun hin => ?_, fun hin => ?_⟩
  · have hstep : step s = .next (txDone v) := step_env_moved hturn hin rfl
    refine ⟨fun hbusy => ?_, fun hfree => ?_⟩
    · rw [hstep, txDone_of_busy (by exact hbusy)]
    · rw [hstep, txDone_of_not_busy (by exact hfree)]
  · have hstep : step s = .next (tick v) := step_env_moved hturn hin rfl
    refine ⟨fun hbelow => ?_, fun hat => ⟨fun hwait => ?_, fun hwait => ?_⟩⟩
    · rw [hstep, tick_below_period (by exact hbelow)]
      rfl
    · rw [hstep, tick_at_period (by exact hat), release_of_no_request (by exact hwait)]
    · rw [hstep, tick_at_period (by exact hat), release_of_request (by exact hwait)]

end Sys2Proof.Proofs
end

section
/-! PROOFS of the statements about the exceptions (R300 to R314): what a dropped datagram writes and which datagrams are dropped
(R310), the interrupt bits (R42, R313, R314), and the end of a command (R305). -/

namespace Sys2Proof.Machine

/-- The end of a command writes the JD unit and sets JD_DONE (R305). -/
theorem endCommand_eq (r : ResultCode) (s : State) : endCommand r s = { s with
    raced := []
    jd := { s.jd with
      result := r, busy := false, done := true, phase := 0, mode := .idle
      prepared := if s.jd.phase = 1 then decide (r = .ok) else s.jd.prepared }
    intr := { s.intr with status := s.intr.status ||| 0x01 } } :=
  State.event_eq _ .jdDone

/-! The interrupt bits (R42, R313, R314). -/

theorem State.event_intr_eq (s : State) (e : Event) :
    (s.event e).intr = { s.intr with status := s.intr.status ||| e.bit } :=
  congrArg State.intr (s.event_eq e)

/-- A clear without an event (R42); the zero is spelled as INT_W1C spells it. -/
theorem intUpdate_no_event (status clear : Byte) : intUpdate status clear 0 = status &&& ~~~clear := BitVec.or_zero

theorem exec_intW1c (clear : Byte) (s : State) :
    exec (.intW1c clear) s = .next { s with intr := { s.intr with status := s.intr.status &&& ~~~clear } } :=
  congrArg (fun status => Host.Outcome.next (s.setIntr { s.intr with status })) (intUpdate_no_event _ _)

/-- A bit is set by its event, or stays set where it is not cleared (R314). -/
theorem intUpdate_getLsbD (status clear set : Byte) (b : Nat) :
    (intUpdate status clear set).getLsbD b = (set.getLsbD b || (status.getLsbD b && !clear.getLsbD b)) := by
  rw [intUpdate, BitVec.getLsbD_or, BitVec.getLsbD_and, BitVec.getLsbD_not, Bool.or_comm]
  by_cases hb : b < 8
  · rw [decide_eq_true hb, Bool.true_and]
  · rw [BitVec.getLsbD_of_ge status b (Nat.le_of_not_lt hb), Bool.false_and, Bool.false_and]

/-- A byte that is not 0 has a bit that is set. -/
theorem byte_ne_zero_iff (v : Byte) : v ≠ 0#8 ↔ ∃ b < 8, v.getLsbD b = true := by
  constructor
  · intro hne
    by_contra hnone
    refine hne (BitVec.eq_of_getLsbD_eq fun b hb => ?_)
    rw [BitVec.getLsbD_zero]
    exact eq_false_of_ne_true fun hset => hnone ⟨b, hb, hset⟩
  · rintro ⟨b, -, hset⟩ rfl
    rw [BitVec.getLsbD_zero] at hset
    cases hset

/-- `irq` is 1 exactly while an enabled bit is set (R313). -/
theorem irq_iff (i : Intr) : irq i = true ↔ ∃ b < 8, i.status.getLsbD b = true ∧ i.enable.getLsbD b = true := by
  have hboth : ∀ b, (i.status &&& i.enable).getLsbD b = true ↔ i.status.getLsbD b = true ∧ i.enable.getLsbD b = true :=
    fun b => by rw [BitVec.getLsbD_and, Bool.and_eq_true]
  simp only [← hboth]
  exact decide_eq_true_iff.trans (byte_ne_zero_iff _)

/-! A dropped datagram (R310). -/

theorem dropDatagram_eq (r : DropReason) (s : State) : dropDatagram r s = { s with
    rx := { s.rx with dropCnt := s.rx.dropCnt + 1, bounds := s.rx.bounds || decide (r = .bounds) }
    intr := { s.intr with status := s.intr.status ||| 0x08 } } :=
  State.event_eq _ .rxDrop

/-! The datagrams that are no packet (R231). -/

theorem decode_radio_long {d : List Byte} (h : 250 < d.length) : decode .radio d = .error .long := if_pos h

theorem decode_radio_short {d : List Byte} (h : d.length < 4) : decode .radio d = .error .short := by
  have hle : ¬ Config.mtu < d.length := Nat.not_lt.mpr (h.le.trans (by decide))
  refine (if_neg hle).trans ?_
  match d, h with
  | [], _ | [_], _ | [_, _], _ | [_, _, _], _ => rfl
  | _ :: _ :: _ :: _ :: _, h => simp only [List.length_cons] at h; omega

theorem radioFetch_long {d : List Byte} (h : 250 < d.length) (s : State) :
    radioFetch d s = .moved (dropDatagram .long s) := by
  rw [radioFetch, decode_radio_long h]

theorem radioFetch_short {d : List Byte} (h : d.length < 4) (s : State) :
    radioFetch d s = .moved (dropDatagram .short s) := by
  rw [radioFetch, decode_radio_short h]

/-! The fragments that fail a check, in the order of the checks (R233, R235). -/

section
variable {p : Packet} {s : State} {seq : Byte} {payload : List Byte}
variable (base : Nat) (complete : Nat → Nat → State → State)

theorem placeFragment_no_seq (h : p.body = []) : placeFragment base complete p s = dropDatagram .short s := by
  rw [placeFragment, h]

theorem placeFragment_large (h : p.body = seq :: payload) (hsize : 245 < p.size.toNat) :
    placeFragment base complete p s = dropDatagram .size s := by
  rw [placeFragment, h]
  exact if_pos hsize

theorem placeFragment_truncated (h : p.body = seq :: payload) (hsize : p.size.toNat ≤ 245)
    (hshort : payload.length < p.size.toNat) : placeFragment base complete p s = dropDatagram .short s := by
  rw [placeFragment, h]
  exact (if_neg hsize.not_gt).trans (if_pos hshort)

theorem placeFragment_outside (h : p.body = seq :: payload) (hsize : p.size.toNat ≤ 245)
    (hfits : p.size.toNat ≤ payload.length)
    (hout : s.params.rxBufSize < base + seq.toNat * 245 + p.size.toNat) :
    placeFragment base complete p s = dropDatagram .bounds s := by
  rw [placeFragment, h]
  exact (if_neg hsize.not_gt).trans ((if_neg hfits.not_gt).trans (if_pos hout))

end

/-! The packets by their type (R81). -/

/-- The two fragment packets are placed, a header fragment from 0 on and a frame fragment behind the header (R234). -/
theorem exec_fragment {t : Byte} (ht : t = 0x02 ∨ t = 0x03) (p : Packet) (s : State) : ∃ complete,
    exec (packetInstr t p) s =
      .next (placeFragment (if t = 0x02 then 0 else s.rx.hdrLen.toNat) complete p s) := by
  rcases ht with rfl | rfl
  · exact ⟨completeHeader, rfl⟩
  · exact ⟨completeFrame, rfl⟩

/-- The other known packets are dropped where they do not hold their payload (R237, R238). -/
theorem exec_control_truncated {t : Byte} (ht : t.toNat ≤ 8) (hheader : t ≠ 0x02) (hframe : t ≠ 0x03) {p : Packet}
    (h : p.body.length < p.size.toNat) (s : State) : exec (packetInstr t p) s = .next (dropDatagram .short s) := by
  have hpass : ∀ c : Byte, .next (passThrough c p s) = (.next (dropDatagram .short s) : Host.Outcome State Fault Refusal) :=
    fun _ => congrArg Host.Outcome.next (if_pos h)
  have htypes : ∀ t : Byte, t.toNat ≤ 8 → t ≠ 0x02 → t ≠ 0x03 →
      t = 0x00 ∨ t = 0x01 ∨ t = 0x04 ∨ t = 0x05 ∨ t = 0x06 ∨ t = 0x07 ∨ t = 0x08 := by decide
  rcases htypes t ht hheader hframe with rfl | rfl | rfl | rfl | rfl | rfl | rfl
  · exact congrArg Host.Outcome.next (if_pos h)
  all_goals exact hpass _

theorem exec_unknown {t : Byte} (ht : 9 ≤ t.toNat) (p : Packet) (s : State) :
    exec (packetInstr t p) s = .next (dropDatagram .type s) := by
  rw [packetInstr_unknown p ht]
  rfl

/-- In the environment's turn a datagram with a whole header runs as the packet of its type (R81, R231). -/
theorem step_packet {s u : State} {rest : List Input} (hturn : s.turn = (.env, u)) {t : Byte} {p : Packet}
    (hin : u.inputs = .radio (encodePacket t p) :: rest) (h : (encodePacket t p).length ≤ 250) :
    step s = exec (packetInstr t p) { u with inputs := rest } :=
  (Proofs.stepRunsDeliveredInstruction s u _ rest _ hturn hin).1 _ rfl (if_neg (Nat.not_lt.mpr h))

end Sys2Proof.Machine

namespace Sys2Proof.Proofs

open Sys2Proof.Machine

/-- Settles O44: the end writes the JD unit once, and its event sets JD_DONE only. -/
theorem commandEnd : Obligations.CommandEnd := endCommand_eq

/-- Settles O18: the write of INT_STATUS and each event are cases of the one update of INT_STATUS, which is read bit by bit. -/
theorem interruptBits : Obligations.InterruptBits := by
  refine ⟨exec_intW1c, fun s => ?_, intUpdate_getLsbD, irq_iff⟩
  have hevent := s.event_intr_eq
  exact ⟨hevent .jdDone, hevent .frameReady, hevent .frameOverrun, hevent .rxDrop, hevent .wdtFire, hevent .txDone,
    hevent .captureGo, hevent .fragDone⟩

/-- Settles O8: a datagram that is no packet is dropped as it is fetched, and a packet by the first check that it fails. -/
theorem datagramsDropped : Obligations.DatagramsDropped := by
  refine ⟨dropDatagram_eq, ?_⟩
  intro s u d rest hturn hin v
  refine ⟨fun hlong => step_env_moved hturn hin (radioFetch_long hlong v),
    fun hshort => step_env_moved hturn hin (radioFetch_short hshort v), ?_⟩
  rintro t f z w body rfl hmtu
  have hstep : step s = exec (packetInstr t ⟨f, z, w, body⟩) v := step_packet hturn hin hmtu
  simp only [List.length_cons]
  refine ⟨fun ht => ?_, fun ht hheader hframe hshort => ?_, fun ht => ?_⟩
  · obtain ⟨complete, hplace⟩ := exec_fragment ht ⟨f, z, w, body⟩ v
    rw [hstep, hplace]
    refine ⟨fun hnoseq => ?_, fun hseq hsize => ?_, fun hseq hsize hshort => ?_, ?_⟩
    · have hnil : body = [] := List.length_eq_zero_iff.mp (by omega)
      exact congrArg _ (placeFragment_no_seq _ _ hnil)
    · obtain ⟨seq, payload, rfl⟩ := List.exists_cons_of_length_pos (l := body) (by omega)
      exact congrArg _ (placeFragment_large _ _ rfl hsize)
    · obtain ⟨seq, payload, rfl⟩ := List.exists_cons_of_length_pos (l := body) (by omega)
      rw [List.length_cons] at hshort
      have hless : payload.length < z.toNat := by omega
      exact congrArg _ (placeFragment_truncated _ _ rfl hsize hless)
    · rintro seq payload rfl hsize hcomplete hout
      rw [List.length_cons] at hcomplete
      have hwhole : z.toNat ≤ payload.length := by omega
      exact congrArg _ (placeFragment_outside _ _ rfl hsize hwhole hout)
  · have hless : body.length < z.toNat := by omega
    exact hstep.trans (exec_control_truncated ht hheader hframe hless v)
  · exact hstep.trans (exec_unknown ht _ v)

end Sys2Proof.Proofs
end

section
/-! PROOFS of the statements about the commands that are not accepted (R21, R40, R337) and the state after reset (R330). -/

namespace Sys2Proof.Machine

/-! The commands that find their unit busy. -/

/-- A JD command written while BUSY is 1 is not accepted, whichever it is (R21, R337). -/
theorem jdCommand_ignored (run : State → State) {s : State} (h : s.jd.busy = true) :
    jdCommand run s = .next (ignoreCommand s) := if_pos h

theorem exec_txcFragStart_ignored (frame : Bool) {s : State} (h : s.txc.fragBusy = true) :
    exec (.txcFragStart frame) s = .next s := if_pos h

/-! What is read right after a reset. -/

/-- With no bit set in INT_STATUS the interrupt line is 0, whatever is enabled (R313). -/
theorem irq_of_status_zero (enable : Byte) : irq ⟨0, enable⟩ = false :=
  decide_eq_false (not_not_intro BitVec.zero_and)

/-- A reset leaves no stored byte in either buffer, so each byte is the free value of its place (R61, R330). -/
theorem State.resetWith_rxByte (p : Params) (epoch : Nat) (b : Bool) (a : Nat) :
    (State.resetWith p epoch).rxByte b a = Config.rxbufDraw epoch b.toNat a := by
  cases b <;> rfl

/-- Zeros appended below a word shift it up. -/
theorem append_zero_eq_shiftLeft {v : Nat} (x : BitVec v) (w : Nat) : x ++ (0 : BitVec w) = x.setWidth (v + w) <<< w := by
  rw [BitVec.append_def, BitVec.shiftLeftZeroExtend_eq, BitVec.setWidth'_eq]
  have hlow : (0 : BitVec w).setWidth (v + w) = 0 := BitVec.setWidth_zero ..
  rw [hlow]
  exact BitVec.or_zero

/-- While USED is 0, JD_ARENA reads the whole pool as free (R26, R330). -/
theorem regRead_arena_of_unused {s : State} (h : s.jd.used = 0) :
    regRead s 0x20 = s.params.poolSize.setWidth 32 <<< 16 := by
  have hword : regRead s 0x20 = (s.params.poolSize - s.jd.used) ++ s.jd.used := rfl
  have hfree : s.params.poolSize - 0 = s.params.poolSize := BitVec.sub_zero _
  rw [hword, h, hfree]
  exact append_zero_eq_shiftLeft _ 16

end Sys2Proof.Machine

namespace Sys2Proof.Proofs

open Sys2Proof.Machine

/-- Settles O14: PREPARE and DECOMP are refused by the one check of BUSY, and a fragmenter start by that of FRAG_BUSY. -/
theorem commandsNotAccepted : Obligations.CommandsNotAccepted := by
  intro b s
  refine ⟨rfl, rfl, fun hbusy => ⟨?_, ?_⟩, exec_txcFragStart_ignored b⟩
  · exact jdCommand_ignored (prepareInit b) hbusy
  · exact jdCommand_ignored decompStart hbusy

/-- Settles O49: the units hold their reset values field by field; the buffers, JD_ARENA and `irq` are read off them. -/
theorem resetState : Obligations.ResetState := by
  intro p epoch s
  exact ⟨rfl, rfl, rfl, rfl, rfl, irq_of_status_zero 0, rfl, State.resetWith_rxByte p epoch, regRead_arena_of_unused rfl, rfl⟩

end Sys2Proof.Proofs
end
